-- ==== Sys2Proof/Word.lean ====
section
/-! DEFINITION. The plain words of the model: a byte of a frame or message, and the indexes of slots, parameter sets and
rate codes. -/

namespace Sys2Proof

/-- One byte of a trunk frame, a slot link message, an image or a parameter set. -/
abbrev Byte := BitVec 8

/-- A sequence of bytes, first byte sent (or lowest offset) first. -/
abbrev Bytes := List Byte

/-- A slot number, 0 to 11 (00_scope.md, "Slots and directions"). -/
abbrev SlotIx := Fin 12

/-- A parameter set number, 0 to 63 (R116). -/
abbrev SetIx := Fin 64

/-- A rate code, 0 to 3 (R52). -/
abbrev RateCode := Fin 4

/-- A timer: stopped (`none`), or running, with the whole interval in nanoseconds it was started with. The model has no
clock: the expiry of a running timer is a command of its own. -/
abbrev Timer := Option Nat

/-- The twelve slots in ascending order. -/
def allSlots : List SlotIx := [0, 1, 2, 3, 4, 5, 6, 7, 8, 9, 10, 11]

end Sys2Proof
end

