-- ==== Sys2Proof/Syntax.lean ====
section
/-! DEFINITION. The commands of the NCB12: one constructor for each row of spec/opcode_table.json, in the table's order.

The 22 rows that are service requests carry the request as the head controller sends it (R174): the tag, the target, the
payload length field and the payload bytes; UNKNOWN_REQUEST also carries its request code. The rows that are frames or slot
link messages carry the bytes received. The rows that are events at one slot carry the slot number. -/

namespace Sys2Proof

/-- A command: what the head controller, a card, a pin or a timer does to the device. -/
inductive Instr where
  | powerOn
  | segIdent (tag target : Byte) (length : BitVec 16) (payload : Bytes)
  | segCycle (tag target : Byte) (length : BitVec 16) (payload : Bytes)
  | segBudget (tag target : Byte) (length : BitVec 16) (payload : Bytes)
  | segAttn (tag target : Byte) (length : BitVec 16) (payload : Bytes)
  | segReset (tag target : Byte) (length : BitVec 16) (payload : Bytes)
  | expLoad (tag target : Byte) (length : BitVec 16) (payload : Bytes)
  | expClear (tag target : Byte) (length : BitVec 16) (payload : Bytes)
  | expRead (tag target : Byte) (length : BitVec 16) (payload : Bytes)
  | psetOpen (tag target : Byte) (length : BitVec 16) (payload : Bytes)
  | psetWrite (tag target : Byte) (length : BitVec 16) (payload : Bytes)
  | psetClose (tag target : Byte) (length : BitVec 16) (payload : Bytes)
  | psetDrop (tag target : Byte) (length : BitVec 16) (payload : Bytes)
  | psetRead (tag target : Byte) (length : BitVec 16) (payload : Bytes)
  | psetList (tag target : Byte) (length : BitVec 16) (payload : Bytes)
  | slotRead (tag target : Byte) (length : BitVec 16) (payload : Bytes)
  | slotHold (tag target : Byte) (length : BitVec 16) (payload : Bytes)
  | slotRelease (tag target : Byte) (length : BitVec 16) (payload : Bytes)
  | slotRestart (tag target : Byte) (length : BitVec 16) (payload : Bytes)
  | slotWithdraw (tag target : Byte) (length : BitVec 16) (payload : Bytes)
  | mapRead (tag target : Byte) (length : BitVec 16) (payload : Bytes)
  | evtRead (tag target : Byte) (length : BitVec 16) (payload : Bytes)
  | unknownRequest (tag code target : Byte) (length : BitVec 16) (payload : Bytes)
  | serviceRequestArrival (frame : Bytes)
  | cycleFrame (frame : Bytes)
  | downstreamFrameDiscard (frame : Bytes)
  | cycleLossTimerExpiry
  | localTick
  | transmitterFree
  | returnFrameSent
  | serviceResponseSent
  | presenceLineAssert (slot : SlotIx)
  | presenceLineDrop (slot : SlotIx)
  | presentTimerExpiry (slot : SlotIx)
  | absentTimerExpiry (slot : SlotIx)
  | inrushMinimumExpiry (slot : SlotIx)
  | powerGood (slot : SlotIx)
  | powerGoodTimeout (slot : SlotIx)
  | trip (slot : SlotIx)
  | runPhaseTimerExpiry (slot : SlotIx)
  | turnaroundExpiry (slot : SlotIx)
  | trainEcho (slot : SlotIx) (message : Bytes)
  | echoWaitExpiry (slot : SlotIx)
  | trainingAttemptTimeout (slot : SlotIx)
  | controlAnswer (slot : SlotIx) (message : Bytes)
  | controlAnswerTimeout (slot : SlotIx)
  | bulkAck (slot : SlotIx) (message : Bytes)
  | bulkWait (slot : SlotIx) (message : Bytes)
  | bulkRefuse (slot : SlotIx) (message : Bytes)
  | corruptBulkAnswer (slot : SlotIx) (message : Bytes)
  | bulkAnswerTimeout (slot : SlotIx)
  | bulkBackoffExpiry (slot : SlotIx)
  | bulkWaitTimerExpiry (slot : SlotIx)
  | cyclicIn (slot : SlotIx) (message : Bytes)
  | linkMessageDiscard (slot : SlotIx) (message : Bytes)
  | linkAliveChange (slot : SlotIx) (present : Bool)
  | linkDrop (slot : SlotIx)
  | slotLinkMessageEnd (slot : SlotIx)
deriving DecidableEq, Repr

end Sys2Proof
end

