-- ==== Sys2Proof/Config.lean ====
section
/-! DEFINITION. What the spec fixes for every NCB12 (capacities, intervals, currents) and the free values: constants with no
body, which stand for what the spec leaves open. -/

namespace Sys2Proof.Config

/-! ### Intervals, in nanoseconds -/

/-- R6, R34: the ordinary debounce interval, 10 ms. -/
def debounceShort : Nat := 10000000
/-- R6, R36: the debounce interval after SLOT_RESTART, 100 ms. -/
def debounceLong : Nat := 100000000
/-- R33: the absent timer, 2 ms. -/
def absentInterval : Nat := 2000000
/-- R38: the standby inrush minimum, 20 ms. -/
def inrushMinimum : Nat := 20000000
/-- R38: the power-good deadline, 50 ms. -/
def powerGoodDeadline : Nat := 50000000
/-- R39: the run inrush phase, 20 ms. -/
def runPhaseInterval : Nat := 20000000
/-- R52: the turnaround between two messages on a slot link, 1,000 ns. -/
def turnaroundInterval : Nat := 1000
/-- R57: the echo wait, 200 µs. -/
def echoWaitInterval : Nat := 200000
/-- R57: a training attempt, 5 ms. -/
def attemptInterval : Nat := 5000000
/-- R56: the absence of link-alive that is reported, 100 µs. -/
def absenceInterval : Nat := 100000
/-- R61: the answer timeout of every control request but PARAM_END, 20 ms. -/
def controlTimeout : Nat := 20000000
/-- R61: the answer timeout of PARAM_END, 2 s. -/
def paramEndTimeout : Nat := 2000000000
/-- R65: the answer timer of a bulk packet, 20 ms. -/
def bulkAnswerInterval : Nat := 20000000
/-- R65: the backoff after a BULK_WAIT, 1 ms. -/
def bulkBackoffInterval : Nat := 1000000
/-- R65: the wait timer, 500 ms. -/
def bulkWaitInterval : Nat := 500000000
/-- R140: the upstream gap, 12 byte times of 100 ns. -/
def upstreamGap : Nat := 1200

/-! ### Capacities and limits -/

/-- R3: the current counted for a card on standby power, in mA. -/
def standbyDraw : Nat := 150
/-- R42: the largest budget, in mA. -/
def budgetMax : Nat := 20000
/-- R190: the capacity of the event queue. -/
def eventCapacity : Nat := 32
/-- R175: the capacity of the request queue. -/
def requestCapacity : Nat := 4
/-- R175: the capacity of the holding area for BUSY answers. -/
def holdingCapacity : Nat := 4
/-- R115: the number of store blocks. -/
def storeBlocks : Nat := 256
/-- R115: the bytes of one store block. -/
def blockBytes : Nat := 256
/-- R116: the longest parameter set. -/
def setMax : Nat := 4096
/-- R141: the longest image of either direction. -/
def imageMax : Nat := 1440
/-- R139: the longest downstream frame that is received. -/
def frameMax : Nat := 1454
/-- R17: the good-exchange run at which attempts are cleared, and at which the run stays. -/
def goodRunMax : Nat := 1000
/-- R20: attempts never exceed 3. -/
def attemptsMax : Nat := 3
/-- R156: the gather margin M, in ns. -/
def gatherMargin : Nat := 5000

/-! ### Free values (the spec leaves them open; nothing evaluates them) -/

/-- The order among slots that the spec leaves open ("in no fixed order among slots", R113, R160; the slots of one mark or
tick, R167): where an event makes several slots act, they act in rising order of this rank. The first argument is the
counter `State.choices`, so that each such event has an order of its own. Log entry 1. -/
opaque slotRank : Nat → SlotIx → Nat

/-- Whether an arbitration pass is taken before the report that the same event makes to its own slot context (`true`) or
after it (`false`): R47 starts the pass, the spec says "in either order" (02, worked case, step 8). The argument is the
counter `State.choices`. Log entry 2. -/
opaque passFirst : Nat → Bool

/-- The byte that stands for DOWNSTREAM (`false`) and UPSTREAM (`true`) in the TIMING answer to SEG_CYCLE: R180 names the
two, R200 gives no code for them. Log entry 4. -/
opaque trunkLineCode : Bool → Byte

/-- Whether the card of a slot is still sending its answer at an exchange start that ends its exchange (R71). It is up to the card, and
no row of the table says when a card begins to send. The first argument is the counter `State.choices`. Log entry 31. -/
opaque cardSending : Nat → SlotIx → Bool

end Sys2Proof.Config
end

