-- ==== Sys2Proof/Machine/State.lean ====
section
/-! DEFINITION. The state of the NCB12: every field the spec gives the device, block by block, the names of all its values,
the reasons a step can stop, and the state right after reset. -/

namespace Sys2Proof.Machine

/-! ### Names of values -/

/-- The nineteen states of a slot context, in the order of the table under STATES (01; codes 0 to 18 by R200). -/
inductive CtxState where
  | empty | settling | standbyWait | standbyInrush | linkTraining | identifying | parked | rateTraining | runWait
  | runInrush | parameterizing | ready | starting | admitPending | running | draining | stopping | withdrawn | faulted
deriving DecidableEq, Repr

/-- The reason field of a context (R1; codes in R200). -/
inductive Reason where
  | unexpected | mismatch | setUnavailable | noCycle | timing | bounds | overlap | command | linkLost | fault
  | presenceLost | disabled
deriving DecidableEq, Repr

/-- The fault kinds (R20, R200). -/
inductive FaultKind where
  | linkTrain | ctrlTimeout | bulkTimeout | paramBusyTimeout | linkDrop | linkLost
  | chainRange | chainLong | chainDup | chainOrder | chainIncomplete | blockShort | layoutBad | descriptorRefused
  | runRefused | paramRefused | paramStall | paramNotAccepted | startRefused
  | powerGoodTimeout | overcurrent | attemptsExhausted
deriving DecidableEq, Repr

/-- The class of a match result (R1). -/
inductive MatchClass where
  | exact | compatible | mismatch | unexpected
deriving DecidableEq, Repr

/-- The sub-reason of a MISMATCH (R1). -/
inductive SubReason where
  | identity | size | submod | power
deriving DecidableEq, Repr

/-- The stage of a power-up queue entry (R45). -/
inductive Stage where
  | standby | run
deriving DecidableEq, Repr

/-- The priority of a record and of a power-up queue entry (R45, R91). -/
inductive Priority where
  | normal | high
deriving DecidableEq, Repr

/-- The admit mode of a record (R91). -/
inductive AdmitMode where
  | auto | onRelease
deriving DecidableEq, Repr

/-- The fill policy of a record (R91, R171). -/
inductive FillPolicy where
  | zero | hold
deriving DecidableEq, Repr

/-- The direction of a window (R164). -/
inductive Direction where
  | output | input
deriving DecidableEq, Repr

/-- The output flag of a CYCLIC_OUT (R70). -/
inductive OutFlag where
  | valid | hold | invalid
deriving DecidableEq, Repr

/-- The state of a slot link (R54). -/
inductive LinkState where
  | down | training | up | failed
deriving DecidableEq, Repr

/-- The kind of a training (R54). -/
inductive TrainKind where
  | base | rate
deriving DecidableEq, Repr

/-- The input state an SLE keeps (R54, R72). -/
inductive InputState where
  | fresh | stale
deriving DecidableEq, Repr

/-- The input state a status entry reports (R150). -/
inductive StatusInput where
  | valid | stale | filled
deriving DecidableEq, Repr

/-- The phase a status entry reports (R150). -/
inductive Phase where
  | empty | bringup | parked | ready | running | withdrawn | faulted
deriving DecidableEq, Repr

/-- The segment mode (R145). -/
inductive SegmentMode where
  | offline | synchronized | cycleLost
deriving DecidableEq, Repr

/-- The state of a parameter set (R116). -/
inductive SetState where
  | free | opened | closed
deriving DecidableEq, Repr

/-- The cause of a rate step (R60). -/
inductive StepCause where
  | trainFail | refused
deriving DecidableEq, Repr

/-- The set outcome of a matching (R112). -/
inductive SetOutcome where
  | none | pinned (set : SetIx) | unavailable (set : SetIx)
deriving DecidableEq, Repr

/-- The completion codes of a service response (R181). -/
inductive Completion where
  | done | busy | unknown | badTarget | badLength | range | state | pinned | notOpen | noSpace | tooLong | timing | bounds
  | discarded
deriving DecidableEq, Repr

/-- The known kinds of descriptor block (R76). -/
inductive BlockKind where
  | ident | supply | link | layout | param
deriving DecidableEq, Repr

/-! ### The card and what is expected of it -/

/-- A revision, major then minor (00, "Revisions"). -/
structure Revision where
  major : Nat
  minor : Nat
deriving DecidableEq, Repr

/-- One sub-module of an identified card, with its card-image offsets (R88, R89). -/
structure SubModule where
  position : Nat
  type : Nat
  outBytes : Nat
  inBytes : Nat
  outOffset : Nat
  inOffset : Nat
deriving DecidableEq, Repr

/-- The parameter declaration of a card (R81). -/
structure ParamDecl where
  format : Nat
  maxLength : Nat
deriving DecidableEq, Repr

/-- The identity record (R88). -/
structure Identity where
  vendor : Nat
  cardType : Nat
  revision : Revision
  serial : Nat
  standbyDraw : Nat
  runDraw : Nat
  maxRate : RateCode
  maxBulk : Nat
  baseOut : Nat
  baseIn : Nat
  subs : List SubModule
  co : Nat
  ci : Nat
  param : Option ParamDecl
deriving DecidableEq, Repr

/-- An identity of an expectation record (R92). -/
structure CardSpec where
  vendor : Nat
  cardType : Nat
  minRev : Revision
  maxRev : Revision
deriving DecidableEq, Repr

/-- An entry of the expected sub-module list (R91). -/
structure ExpSub where
  position : Nat
  type : Nat
  outBytes : Nat
  inBytes : Nat
  required : Bool
deriving DecidableEq, Repr

/-- An expectation record (R91). -/
structure ExpRecord where
  enabled : Bool
  primary : CardSpec
  substitutes : List CardSpec
  baseOut : Nat
  baseIn : Nat
  subs : List ExpSub
  set : Option SetIx
  outOffset : Nat
  inOffset : Nat
  rateCap : RateCode
  drawCap : Nat
  priority : Priority
  admitMode : AdmitMode
  fill : FillPolicy
  recover : Bool
deriving DecidableEq, Repr

/-- The source of a segment: card bytes at an offset of the card image, or a fill (R109). -/
inductive Source where
  | card (offset : Nat)
  | fill
deriving DecidableEq, Repr

/-- A segment of an adaptation table (R109). -/
structure Segment where
  offset : Nat
  length : Nat
  source : Source
deriving DecidableEq, Repr

/-- A span of an image: a frame offset and a length. -/
structure Span where
  offset : Nat
  length : Nat
deriving DecidableEq, Repr

/-- The admitted layout (R111). -/
structure Layout where
  outWindow : Span
  inWindow : Span
  outTable : List Segment
  inTable : List Segment
  fill : FillPolicy
  set : Option SetIx
  adapted : Bool
deriving DecidableEq, Repr

/-- The match result of a context (R1). -/
structure MatchResult where
  cls : MatchClass
  sub : Option SubReason
  substitute : Option Nat
deriving DecidableEq, Repr

/-- The fault record of a context (R1, R21). -/
structure FaultRecord where
  kind : FaultKind
  stateAt : CtxState
  detail : Nat
  attempts : Nat
deriving DecidableEq, Repr

/-! ### The descriptor walk and the download -/

/-- A block header (R75). `kind` is the kind code as received. -/
structure BlockHeader where
  kind : Nat
  bodyLength : Nat
  next : Nat
deriving DecidableEq, Repr

/-- The fields of an IDENT body (R77). -/
structure IdentBody where
  vendor : Nat
  cardType : Nat
  revision : Revision
  serial : Nat
deriving DecidableEq, Repr

/-- One entry of a LAYOUT body (R80). -/
structure LayoutEntry where
  position : Nat
  type : Nat
  outBytes : Nat
  inBytes : Nat
deriving DecidableEq, Repr

/-- The fields of a LAYOUT body (R80). -/
structure LayoutBody where
  baseOut : Nat
  baseIn : Nat
  entries : List LayoutEntry
deriving DecidableEq, Repr

/-- The gathered fields of a walk (R82): the bodies of the known blocks walked so far. -/
structure Gathered where
  ident : Option IdentBody
  supply : Option (Nat × Nat)
  link : Option (RateCode × Nat)
  layout : Option LayoutBody
  param : Option ParamDecl
deriving DecidableEq, Repr

/-- The stage of a walk (R82): HEADER, or BODY with the bytes gathered so far. -/
inductive WalkStage where
  | header
  | body (gathered : Bytes)
deriving DecidableEq, Repr

/-- The walk record (R82). -/
structure Walk where
  offset : Nat
  number : Nat
  stage : WalkStage
  header : Option BlockHeader
  kinds : List BlockKind
  fields : Gathered
deriving DecidableEq, Repr

/-- The phase of a download (R129). -/
inductive DownloadPhase where
  | precheck | begin | transfer | finish
deriving DecidableEq, Repr

/-- The download record (R129). -/
structure Download where
  phase : DownloadPhase
  set : SetIx
  length : Nat
  format : Nat
  sum16 : Nat
  packetSize : Nat
deriving DecidableEq, Repr

/-! ### The slot context -/

/-- The slot context (R1), with the walk record (R82) and the download record (R129) the SCA keeps beside it. -/
structure Context where
  state : CtxState
  reason : Option Reason
  fault : Option FaultRecord
  attempts : Nat
  goodRun : Nat
  hold : Bool
  identity : Option Identity
  result : Option MatchResult
  layout : Option Layout
  rateCode : RateCode
  heldDraw : Nat
  pinned : Option SetIx
  missCount : Nat
  progress : Option Nat
  walk : Option Walk
  download : Option Download
deriving DecidableEq, Repr

/-! ### The slot's part of the Power Controller -/

/-- The state of a presence debouncer, with the interval in use in RISING (R33). -/
inductive DebounceState where
  | absent
  | rising (interval : Nat)
  | present
deriving DecidableEq, Repr

/-- The PWC's record of one slot: the presence line (an input), the debouncer and its timers (R33; at most one of the two
runs), the switch (R37) and the inrush timers with the remembered power-good (R38, R39). -/
structure SlotPower where
  line : Bool
  debouncer : DebounceState
  presentTimer : Timer
  absentTimer : Timer
  switchOn : Bool
  minimumTimer : Timer
  deadlineTimer : Timer
  goodSeen : Bool
  runPhaseTimer : Timer
deriving DecidableEq, Repr

/-! ### The slot link engine -/

/-- A control request with its fields (R61). -/
inductive ControlReq where
  | readDescriptor (offset length : Nat)
  | setRate (code : RateCode)
  | enableRun
  | paramBegin (length format sum16 packetSize : Nat)
  | paramEnd
  | start
  | stop
deriving DecidableEq, Repr

/-- The control pipe (R54, R62): IDLE, or WAITING with the request, its number, and whether it has been repeated. -/
inductive ControlPipe where
  | idle
  | waiting (request : ControlReq) (number : Nat) (repeated : Bool)
deriving DecidableEq, Repr

/-- The bulk pipe while it runs (R65). `total` is the length L of the set and `offset` the bytes acknowledged, at which the
packet in flight starts; `sent` is set once the packet in flight has been sent. -/
structure Bulk where
  total : Nat
  packetSize : Nat
  offset : Nat
  length : Nat
  seqBit : Bool
  resends : Nat
  sent : Bool
  answerTimer : Timer
  backoffTimer : Timer
  waitTimer : Timer
deriving DecidableEq, Repr

/-- A message the SLE sends (R204). -/
inductive LinkMessage where
  | train (kind : TrainKind) (target : RateCode) (seq : Nat)
  | request (number : Nat) (request : ControlReq)
  | packet (seqBit : Bool) (bytes : Bytes)
  | cyclicOut (flag : OutFlag) (bytes : Bytes)
deriving DecidableEq, Repr

/-- What the SLE sends next when the turnaround has ended (R52): the message itself is made when it is sent. -/
inductive NextSend where
  | train
  | request (request : ControlReq)
  | again
  | packet
  | cyclicOut (flag : OutFlag) (bytes : Bytes)
deriving DecidableEq, Repr

/-- The record of a slot link engine (R54), its timers, the pair's turnaround and the message now being sent (R52), whether the
rest of a card's message is still to be discarded (R71), and the link-alive line (an input) with its absence count (R56). -/
structure LinkEngine where
  link : LinkState
  lost : Bool
  training : Option (TrainKind × RateCode)
  failures : Nat
  echoes : Nat
  seq : Nat
  watch : Bool
  pipe : ControlPipe
  requestNumber : Nat
  bulk : Option Bulk
  exchange : Option OutFlag
  lastOutputs : Option Bytes
  input : InputState
  attemptTimer : Timer
  echoTimer : Timer
  answerTimer : Timer
  turnaround : Timer
  sending : Option LinkMessage
  receiving : Bool
  next : Option NextSend
  alive : Bool
  absenceTimer : Timer
  absenceReported : Bool
deriving DecidableEq, Repr

/-! ### The slot's part of the Image Mapper -/

/-- A window (R164): its frame offset and length are absent while it is VACANT. -/
inductive Window where
  | vacant
  | armed (span : Span)
  | live (span : Span)
  | retiring (span : Span)
deriving DecidableEq, Repr

/-- The IMP's copy of a slot's adaptation tables and fill policy (R164). -/
structure TableCopy where
  outTable : List Segment
  inTable : List Segment
  fill : FillPolicy
deriving DecidableEq, Repr

/-- The IMP's record of one slot: its two windows, the copy of its tables (R164), the latest good inputs (R170) and the
status input state the last assembled return frame reported (R173). -/
structure SlotMap where
  output : Window
  input : Window
  tables : Option TableCopy
  latest : Option Bytes
  reported : StatusInput
deriving DecidableEq, Repr

/-- Everything the device keeps for one slot: the context (SCA), its power (PWC), its link engine (SLE), its windows (IMP)
and its place in the Expected Configuration Table (ECT, R91). -/
structure Slot where
  ctx : Context
  power : SlotPower
  link : LinkEngine
  map : SlotMap
  expected : Option ExpRecord
deriving DecidableEq, Repr

/-! ### The rack's blocks -/

/-- An entry of the power-up queue (R45). Its arrival is its place in the queue's list. -/
structure PowerEntry where
  slot : SlotIx
  stage : Stage
  increase : Nat
  priority : Priority
  passedOver : Bool
deriving DecidableEq, Repr

/-- The rack's part of the Power Controller (R41 to R47). The queue is kept in order of joining. -/
structure PowerBlock where
  committed : Nat
  budget : Nat
  queue : List PowerEntry
  owner : Option SlotIx
deriving DecidableEq, Repr

/-- A set record of the Parameter Store's directory (R116). -/
structure SetRecord where
  state : SetState
  format : Nat
  length : Nat
  sum16 : Nat
  blocks : List Nat
  writePointer : Option Nat
  pins : Nat
deriving DecidableEq, Repr

/-- The Parameter Store (R115, R116): the directory, the free pool as the rising list of its block numbers, and the bytes of
the 256 blocks, byte k of block b at address 256 × b + k. -/
structure Store where
  sets : Vector SetRecord 64
  pool : List Nat
  memory : List Host.Cell
deriving DecidableEq, Repr

/-- A status entry of a return frame (R150). -/
structure StatusEntry where
  phase : Phase
  input : StatusInput
  adapted : Bool
deriving DecidableEq, Repr

/-- A return frame (R149). -/
structure ReturnFrame where
  mode : SegmentMode
  attention : Bool
  rejected : Bool
  cycle : Nat
  status : List StatusEntry
  image : Bytes
deriving DecidableEq, Repr

/-- The upstream transmitter (R140): free, sending a return frame, sending the response of the head entry, sending the
oldest BUSY answer, or in the gap after a frame. -/
inductive Transmitter where
  | free
  | sendingReturn (frame : ReturnFrame)
  | sendingHead
  | sendingBusy
  | gap (timer : Nat)
deriving DecidableEq, Repr

/-- The Trunk Interface record (R141), the upstream transmitter (R140) among it. -/
structure Trunk where
  mode : SegmentMode
  period : Nat
  outLength : Nat
  inLength : Nat
  reserve : Nat
  lastCycle : Nat
  lossTimer : Timer
  tickTimer : Timer
  rejected : Bool
  waiting : Option ReturnFrame
  transmitter : Transmitter
deriving DecidableEq, Repr

/-- A refused admission with its figures (R159). -/
inductive Refused where
  | noCycle
  | timing (need period : Nat)
  | bounds (direction : Direction) (windowEnd imageLength : Nat)
  | overlap (other : SlotIx) (live : Bool)
deriving DecidableEq, Repr

/-- The kind of an event with its detail (R189). -/
inductive EventBody where
  | milestone (state : CtxState) (reason : Option Reason) (sub : Option SubReason) (fault : Option (FaultKind × Nat))
  | matchDone (cls : MatchClass) (sub : Option SubReason) (substitute position : Option Nat) (outcome : SetOutcome)
      (rate : Option RateCode) (adaptations : Nat)
  | rateReduced (stepFrom stepTo : RateCode) (cause : StepCause)
  | admitRefused (refusal : Refused)
  | budgetShort (stage : Stage) (increase committed budget : Nat)
  | budgetOvercommitted (budget committed : Nat)
  | cycleState (left entered : SegmentMode)
  | expectChanged (state : CtxState) (cleared differs : Bool)
  | resetDone
deriving DecidableEq, Repr

/-- An event record (R188). -/
structure Event where
  slot : Option SlotIx
  cycle : Nat
  body : EventBody
deriving DecidableEq, Repr

/-- The Event Queue (R190, R192). -/
structure EventBlock where
  events : List Event
  lost : Bool
  moderation : Nat
  interval : Nat
deriving DecidableEq, Repr

/-- A service request as received (R174, R175). -/
structure Request where
  tag : Byte
  code : Byte
  target : Byte
  length : BitVec 16
  payload : Bytes
deriving DecidableEq, Repr

/-- What SLOT_READ reports of a slot (R32). -/
structure SlotReport where
  ctx : Context
  switchOn : Bool
  link : LinkState
  lost : Bool
  atHoldPoint : Bool
  headroom : Nat
deriving DecidableEq, Repr

/-- What PSET_LIST reports of a set (R126). -/
structure SetReport where
  state : SetState
  format : Nat
  length : Nat
  sum16 : Nat
  blocks : Nat
  pins : Nat
deriving DecidableEq, Repr

/-- What MAP_READ reports of a slot (R173): both windows, and for a LIVE input window its reported status input state. -/
structure MapReport where
  output : Window
  input : Window
  status : Option StatusInput
deriving DecidableEq, Repr

/-- The data of a response (R180): what the owning chapter gives for the request. -/
inductive Payload where
  | none
  | ident
  | cycle (period outLength inLength reserve down up : Nat)
  | lineTiming (upstream : Bool)
  | slotTiming (slot : SlotIx) (need : Nat)
  | outOfBounds (slot : SlotIx) (direction : Direction)
  | power (budget committed : Nat) (owner : Option SlotIx) (queue : List PowerEntry)
  | attention (interval moderation queued : Nat)
  | windowLengths (output input : Nat)
  | record (record : Option ExpRecord)
  | freeBlocks (count : Nat)
  | written (length count : Nat)
  | closed (length sum16 : Nat)
  | bytes (bytes : Bytes)
  | sets (count : Nat) (list : List SetReport)
  | slot (report : SlotReport)
  | map (outLength inLength : Nat) (slots : List MapReport)
  | events (lost : Bool) (left : Nat) (records : List Event)
deriving DecidableEq, Repr

/-- The answer of a request's execution: completion code, field index and data (R180). -/
structure Answer where
  completion : Completion
  field : Nat
  payload : Payload
deriving DecidableEq, Repr

/-- A service response (R180): tag, request code and target copied from the request. `built` is the moment it was built, as
its place in the order of building (R140, R182). -/
structure Response where
  tag : Byte
  code : Byte
  target : Byte
  answer : Answer
  built : Nat
deriving DecidableEq, Repr

/-- The state of a request queue entry (R175). -/
inductive EntryState where
  | waiting
  | answered (response : Response)
  | discarded (response : Response)
deriving DecidableEq, Repr

/-- A request queue entry (R175). -/
structure Entry where
  request : Request
  state : EntryState
deriving DecidableEq, Repr

/-- The Service Request Queue (R175): the entries in arrival order, the BUSY answers in order of building, and the count of
responses built, which dates each of them. -/
structure RequestBlock where
  queue : List Entry
  holding : List Response
  built : Nat
deriving DecidableEq, Repr

/-- The state of the NCB12. `retained` is the IMP's retained output image (R168); `choices` is the model's own counter, at
which the free values are read; `pending` is the model's queue of commands that wait. -/
structure State where
  slots : Vector Slot 12
  power : PowerBlock
  trunk : Trunk
  requests : RequestBlock
  store : Store
  events : EventBlock
  retained : Bytes
  choices : Nat
  pending : List Instr
deriving DecidableEq, Repr

/-! ### Stops -/

/-- The faults of a step: none. The spec gives every command an effect in every state (R4, R53, R139 and R178 say what
becomes of reports, messages, frames and requests that do not fit), so no command stops the device. Safe. -/
inductive Fault where
deriving DecidableEq, Repr

/-- The refusals of a step. -/
inductive Refusal where
  /-- Raised by `exec` for a command that has no meaning yet; no arm raises it. Safe: nothing can be proved of it. -/
  | notModelled (mnemonic : String)
deriving DecidableEq, Repr

/-! ### Reset -/

/-- R2: a context at power-on. -/
def Context.reset : Context :=
  { state := .empty, reason := none, fault := none, attempts := 0, goodRun := 0, hold := false, identity := none,
    result := none, layout := none, rateCode := 0, heldDraw := 0, pinned := none, missCount := 0, progress := none,
    walk := none, download := none }

/-- R33, R51: a slot's power at power-on, its presence line at the level given. -/
def SlotPower.reset (line : Bool) : SlotPower :=
  { line := line, debouncer := .absent, presentTimer := none, absentTimer := none, switchOn := false,
    minimumTimer := none, deadlineTimer := none, goodSeen := false, runPhaseTimer := none }

/-- R54: a link engine at power-on, its link-alive line at the level given. -/
def LinkEngine.reset (alive : Bool) (reported : Bool) : LinkEngine :=
  { link := .down, lost := false, training := none, failures := 0, echoes := 0, seq := 0, watch := false, pipe := .idle,
    requestNumber := 0, bulk := none, exchange := none, lastOutputs := none, input := .fresh, attemptTimer := none,
    echoTimer := none, answerTimer := none, turnaround := none, sending := none, receiving := false, next := none, alive := alive,
    absenceTimer := none, absenceReported := reported }

/-- R164, R170: a slot's part of the map at power-on. The reported status is FILLED, as R150 gives for a slot whose input
window is not LIVE. -/
def SlotMap.reset : SlotMap :=
  { output := .vacant, input := .vacant, tables := none, latest := none, reported := .filled }

/-- A slot at power-on, its two input lines at the levels given (R2, R51, R54, R94, R164). -/
def Slot.reset (line alive : Bool) : Slot :=
  { ctx := Context.reset, power := SlotPower.reset line, link := LinkEngine.reset alive false, map := SlotMap.reset,
    expected := none }

/-- R116: a FREE set. -/
def SetRecord.reset : SetRecord :=
  { state := .free, format := 0, length := 0, sum16 := 0, blocks := [], writePointer := none, pins := 0 }

/-- The device after power-on with no presence line asserted and no link-alive line driven (R2, R51, R54, R94, R119, R141,
R164, R168, R175, R194). The lines are inputs, not state the spec resets: that they are low is log entry 5. DESIGN CHOICE: the
upstream transmitter, for which R140 and R141 give no value, is free (log entry 29). -/
def State.reset : State :=
  { slots := Vector.replicate 12 (Slot.reset false false)
    power := { committed := 0, budget := 0, queue := [], owner := none }
    trunk := { mode := .offline, period := 0, outLength := 0, inLength := 0, reserve := 200, lastCycle := 0,
               lossTimer := none, tickTimer := none, rejected := false, waiting := none, transmitter := .free }
    requests := { queue := [], holding := [], built := 0 }
    store := { sets := Vector.replicate 64 SetRecord.reset, pool := List.range 256, memory := [] }
    events := { events := [], lost := false, moderation := 0, interval := 0 }
    retained := []
    choices := 0
    pending := [] }

end Sys2Proof.Machine
end

