-- ==== Sys2Proof/Machine/Codes.lean ====
section
/-! DEFINITION. The numeric codes of R200, R202 and R204, and the request codes by name. -/

namespace Sys2Proof.Machine

def CtxState.code : CtxState → Nat
  | .empty => 0 | .settling => 1 | .standbyWait => 2 | .standbyInrush => 3 | .linkTraining => 4 | .identifying => 5
  | .parked => 6 | .rateTraining => 7 | .runWait => 8 | .runInrush => 9 | .parameterizing => 10 | .ready => 11
  | .starting => 12 | .admitPending => 13 | .running => 14 | .draining => 15 | .stopping => 16 | .withdrawn => 17
  | .faulted => 18

def Reason.code : Reason → Nat
  | .unexpected => 1 | .mismatch => 2 | .setUnavailable => 3 | .noCycle => 4 | .timing => 5 | .bounds => 6
  | .overlap => 7 | .command => 8 | .linkLost => 9 | .fault => 10 | .presenceLost => 11 | .disabled => 12

def FaultKind.code : FaultKind → Nat
  | .linkTrain => 1 | .ctrlTimeout => 2 | .bulkTimeout => 3 | .paramBusyTimeout => 4 | .linkDrop => 5 | .linkLost => 6
  | .chainRange => 16 | .chainLong => 17 | .chainDup => 18 | .chainOrder => 19 | .chainIncomplete => 20
  | .blockShort => 21 | .layoutBad => 22 | .descriptorRefused => 23
  | .runRefused => 32 | .paramRefused => 33 | .paramStall => 34 | .paramNotAccepted => 35 | .startRefused => 36
  | .powerGoodTimeout => 48 | .overcurrent => 49 | .attemptsExhausted => 64

def MatchClass.code : MatchClass → Nat
  | .exact => 0 | .compatible => 1 | .mismatch => 2 | .unexpected => 3

def SubReason.code : SubReason → Nat
  | .identity => 1 | .size => 2 | .submod => 3 | .power => 4

def Stage.code : Stage → Nat
  | .standby => 0 | .run => 1

def Priority.code : Priority → Nat
  | .normal => 0 | .high => 1

def AdmitMode.code : AdmitMode → Nat
  | .auto => 0 | .onRelease => 1

def FillPolicy.code : FillPolicy → Nat
  | .zero => 0 | .hold => 1

def Direction.code : Direction → Nat
  | .output => 0 | .input => 1

def OutFlag.code : OutFlag → Nat
  | .valid => 0 | .hold => 1 | .invalid => 2

def LinkState.code : LinkState → Nat
  | .down => 0 | .training => 1 | .up => 2 | .failed => 3

def TrainKind.code : TrainKind → Nat
  | .base => 0 | .rate => 1

def StatusInput.code : StatusInput → Nat
  | .valid => 0 | .stale => 1 | .filled => 2

def Phase.code : Phase → Nat
  | .empty => 0 | .bringup => 1 | .parked => 2 | .ready => 3 | .running => 4 | .withdrawn => 5 | .faulted => 6

def SegmentMode.code : SegmentMode → Nat
  | .offline => 0 | .synchronized => 1 | .cycleLost => 2

def SetState.code : SetState → Nat
  | .free => 0 | .opened => 1 | .closed => 2

def StepCause.code : StepCause → Nat
  | .trainFail => 0 | .refused => 1

def Completion.code : Completion → Nat
  | .done => 0 | .busy => 1 | .unknown => 2 | .badTarget => 3 | .badLength => 4 | .range => 5 | .state => 6
  | .pinned => 7 | .notOpen => 8 | .noSpace => 9 | .tooLong => 10 | .timing => 11 | .bounds => 12 | .discarded => 13

def BlockKind.code : BlockKind → Nat
  | .ident => 1 | .supply => 2 | .link => 3 | .layout => 4 | .param => 5

def Window.code : Window → Nat
  | .vacant => 0 | .armed _ => 1 | .live _ => 2 | .retiring _ => 3

def EventBody.code : EventBody → Nat
  | .milestone .. => 1 | .matchDone .. => 2 | .rateReduced .. => 3 | .admitRefused .. => 4 | .budgetShort .. => 5
  | .budgetOvercommitted .. => 6 | .cycleState .. => 7 | .expectChanged .. => 8 | .resetDone => 9

/-- The reason that names a refused admission (R158). -/
def Refused.reason : Refused → Reason
  | .noCycle => .noCycle | .timing .. => .timing | .bounds .. => .bounds | .overlap .. => .overlap

/-- The control request codes (R204). -/
def ControlReq.code : ControlReq → Nat
  | .readDescriptor .. => 1 | .setRate _ => 2 | .enableRun => 3 | .paramBegin .. => 4 | .paramEnd => 5 | .start => 6
  | .stop => 7

/-! ### Request codes (R200) -/

def codeSegIdent : Byte := 1
def codeSegCycle : Byte := 2
def codeSegBudget : Byte := 3
def codeSegAttn : Byte := 4
def codeSegReset : Byte := 5
def codeExpLoad : Byte := 16
def codeExpClear : Byte := 17
def codeExpRead : Byte := 18
def codePsetOpen : Byte := 32
def codePsetWrite : Byte := 33
def codePsetClose : Byte := 34
def codePsetDrop : Byte := 35
def codePsetRead : Byte := 36
def codePsetList : Byte := 37
def codeSlotRead : Byte := 48
def codeSlotHold : Byte := 49
def codeSlotRelease : Byte := 50
def codeSlotRestart : Byte := 51
def codeSlotWithdraw : Byte := 52
def codeMapRead : Byte := 64
def codeEvtRead : Byte := 65

/-- The requests of R179, by name. -/
inductive RequestName where
  | segIdent | segCycle | segBudget | segAttn | segReset | expLoad | expClear | expRead | psetOpen | psetWrite
  | psetClose | psetDrop | psetRead | psetList | slotRead | slotHold | slotRelease | slotRestart | slotWithdraw
  | mapRead | evtRead
deriving DecidableEq, Repr

def RequestName.code : RequestName → Byte
  | .segIdent => codeSegIdent | .segCycle => codeSegCycle | .segBudget => codeSegBudget | .segAttn => codeSegAttn
  | .segReset => codeSegReset | .expLoad => codeExpLoad | .expClear => codeExpClear | .expRead => codeExpRead
  | .psetOpen => codePsetOpen | .psetWrite => codePsetWrite | .psetClose => codePsetClose | .psetDrop => codePsetDrop
  | .psetRead => codePsetRead | .psetList => codePsetList | .slotRead => codeSlotRead | .slotHold => codeSlotHold
  | .slotRelease => codeSlotRelease | .slotRestart => codeSlotRestart | .slotWithdraw => codeSlotWithdraw
  | .mapRead => codeMapRead | .evtRead => codeEvtRead

/-- R178 step 1: the request a code names, if any. -/
def requestName (code : Byte) : Option RequestName :=
  if code = codeSegIdent then some .segIdent
  else if code = codeSegCycle then some .segCycle
  else if code = codeSegBudget then some .segBudget
  else if code = codeSegAttn then some .segAttn
  else if code = codeSegReset then some .segReset
  else if code = codeExpLoad then some .expLoad
  else if code = codeExpClear then some .expClear
  else if code = codeExpRead then some .expRead
  else if code = codePsetOpen then some .psetOpen
  else if code = codePsetWrite then some .psetWrite
  else if code = codePsetClose then some .psetClose
  else if code = codePsetDrop then some .psetDrop
  else if code = codePsetRead then some .psetRead
  else if code = codePsetList then some .psetList
  else if code = codeSlotRead then some .slotRead
  else if code = codeSlotHold then some .slotHold
  else if code = codeSlotRelease then some .slotRelease
  else if code = codeSlotRestart then some .slotRestart
  else if code = codeSlotWithdraw then some .slotWithdraw
  else if code = codeMapRead then some .mapRead
  else if code = codeEvtRead then some .evtRead
  else none

end Sys2Proof.Machine
end

