-- ==== Sys2Proof/Machine/Wire.lean ====
section
/-! DEFINITION. Bytes on the wires: numbers in frames (most significant byte first), the two CRCs (R198), the classification
of downstream frames (R139), the cycle frame and service request headers (R199) and the slot link message (R204). -/

namespace Sys2Proof.Machine

/-! ### Numbers -/

/-- The byte at offset `k`, 0 beyond the end. -/
def byteAt (bs : Bytes) (k : Nat) : Nat := (bs.getD k 0).toNat

/-- The 2-byte number at offset `k`, most significant byte first. -/
def numAt16 (bs : Bytes) (k : Nat) : Nat := byteAt bs k * 256 + byteAt bs (k + 1)

/-- The 4-byte number at offset `k`, most significant byte first. -/
def numAt32 (bs : Bytes) (k : Nat) : Nat := numAt16 bs k * 65536 + numAt16 bs (k + 2)

/-- A number sent in one byte. -/
def enc8 (n : Nat) : Bytes := [BitVec.ofNat 8 n]

/-- A number sent in two bytes, most significant first (R196). -/
def enc16 (n : Nat) : Bytes := [BitVec.ofNat 8 (n / 256), BitVec.ofNat 8 n]

/-- A number sent in four bytes, most significant first (R196). -/
def enc32 (n : Nat) : Bytes := enc16 (n / 65536) ++ enc16 n

/-! ### CRCs (R198) -/

/-- The bits of a byte, most significant first. -/
def byteBits (b : Byte) : List Bool := [7, 6, 5, 4, 3, 2, 1, 0].map b.getLsbD

/-- One bit through a CRC register of width `w`: shift left, and add the generator when the bit that leaves differs from
the bit that enters. -/
def crcBit {w : Nat} (poly : BitVec w) (r : BitVec w) (b : Bool) : BitVec w :=
  if r.msb != b then (r <<< 1) ^^^ poly else r <<< 1

/-- A CRC register, from all ones, after the bytes given. -/
def crcRegister {w : Nat} (poly : BitVec w) (bs : Bytes) : BitVec w :=
  bs.foldl (fun r b => (byteBits b).foldl (crcBit poly) r) (BitVec.allOnes w)

/-- The CRC of a slot link message: generator x¹⁶ + x¹² + x⁵ + 1, sent as the register stands. -/
def crc16 (bs : Bytes) : Nat := (crcRegister (0x1021#16) bs).toNat

/-- The CRC of a trunk frame: the 32-bit generator of R198, sent as the ones' complement of the register. -/
def crc32 (bs : Bytes) : Nat := (~~~ crcRegister (0x04C11DB7#32) bs).toNat

/-- R198: the CRC of a trunk frame holds (its last four bytes carry it). -/
def trunkCrcHolds (bs : Bytes) : Bool :=
  decide (4 ≤ bs.length) && decide (crc32 (bs.take (bs.length - 4)) = numAt32 bs (bs.length - 4))

/-- A trunk frame: the bytes given, followed by their CRC. -/
def withCrc32 (bs : Bytes) : Bytes := bs ++ enc32 (crc32 bs)

/-- A slot link message: the bytes given, followed by their CRC. -/
def withCrc16 (bs : Bytes) : Bytes := bs ++ enc16 (crc16 bs)

/-! ### Downstream frames -/

/-- The handling of a downstream frame by its kind as received (R139). -/
inductive FrameClass where
  | cycle | service | discard
deriving DecidableEq, Repr

/-- R139: reception ends a frame at 1,454 bytes. -/
def received (frame : Bytes) : Bytes := frame.take Config.frameMax

/-- R139, R197: what a received frame is. -/
def classify (bs : Bytes) : FrameClass :=
  if bs.length < 4 then .discard
  else if byteAt bs 0 = 1 then .cycle
  else if byteAt bs 0 = 2 then (if trunkCrcHolds bs then .service else .discard)
  else .discard

/-- R199: the outputs-valid flag of a cycle frame. -/
def frameValid (bs : Bytes) : Bool := (bs.getD 1 0).getLsbD 0

/-- R199: the cycle number of a cycle frame. -/
def frameNumber (bs : Bytes) : Nat := numAt32 bs 2

/-- R199: the image length field of a cycle frame. -/
def frameImageLength (bs : Bytes) : Nat := numAt16 bs 6

/-- R199: the output image of a cycle frame of the length its field gives. -/
def frameImage (bs : Bytes) : Bytes := (bs.drop 10).take (frameImageLength bs)

/-- R142: a cycle frame is good when its CRC holds, its image length field equals L_out, and the bytes received are 14 plus
that length. -/
def goodCycleFrame (outLength : Nat) (bs : Bytes) : Bool :=
  trunkCrcHolds bs && decide (frameImageLength bs = outLength) && decide (bs.length = 14 + frameImageLength bs)

/-! ### Slot link messages -/

/-- A slot link message as received: kind code, number, body (R204). -/
structure LinkFrame where
  kind : Nat
  number : Nat
  body : Bytes
deriving DecidableEq, Repr

/-- R53: a message whose CRC holds and whose body length agrees with the bytes received. -/
def parseLink (bs : Bytes) : Option LinkFrame :=
  if bs.length < 6 then none
  else if crc16 (bs.take (bs.length - 2)) ≠ numAt16 bs (bs.length - 2) then none
  else if numAt16 bs 1 ≠ bs.length - 6 then none
  else some { kind := byteAt bs 0, number := byteAt bs 3, body := (bs.drop 4).take (bs.length - 6) }

/-- R204: the bytes of a slot link message. -/
def linkBytes (kind number : Nat) (body : Bytes) : Bytes :=
  withCrc16 (enc8 kind ++ enc16 body.length ++ enc8 number ++ body)

/-! ### Message kind codes (R204) -/

def kindTrain : Nat := 1
def kindTrainEcho : Nat := 2
def kindControlRequest : Nat := 3
def kindControlAnswer : Nat := 4
def kindBulkPacket : Nat := 5
def kindBulkAck : Nat := 6
def kindBulkWait : Nat := 7
def kindBulkRefuse : Nat := 8
def kindCyclicOut : Nat := 9
def kindCyclicIn : Nat := 10

end Sys2Proof.Machine
end

