-- ==== Sys2Proof/Machine/Encode.lean ====
section
/-! DEFINITION. The bytes of what the device sends: slot link messages (R204), event records (R201), service responses and
their data (R180, R196) and return frames (R149, R199). The layouts R196 leaves to its general rules are log entry 6. -/

namespace Sys2Proof.Machine

/-! ### Kinds of field (R196) -/

def encFlag (b : Bool) : Nat := if b then 1 else 0

/-- An optional one-byte field: 255 when absent. -/
def encOpt8 (f : Option Nat) : Bytes := enc8 (f.getD 255)

/-- An optional 2-byte field: a presence byte, then the field, zeros when absent. -/
def encOpt16 : Option Nat → Bytes
  | some n => enc8 1 ++ enc16 n
  | none => enc8 0 ++ enc16 0

def zeros (n : Nat) : Bytes := List.replicate n 0

/-! ### Slot link messages (R204) -/

/-- R204: pattern byte k of a TRAIN is (sequence number + 17 × k) modulo 256. -/
def trainPattern (seq : Nat) : Bytes := (List.range 13).map fun k => BitVec.ofNat 8 (seq + 17 * k)

/-- R57, R204: the 16 body bytes of a TRAIN. -/
def trainBody (kind : TrainKind) (target : RateCode) (seq : Nat) : Bytes :=
  enc8 kind.code ++ enc8 target.val ++ enc8 seq ++ trainPattern seq

/-- R204: the body of a CONTROL_REQUEST. -/
def ControlReq.body (r : ControlReq) : Bytes :=
  enc8 r.code ++
    match r with
    | .readDescriptor offset length => enc16 offset ++ enc8 length
    | .setRate code => enc8 code.val
    | .paramBegin length format sum16 packetSize => enc16 length ++ enc16 format ++ enc16 sum16 ++ enc16 packetSize
    | .enableRun | .paramEnd | .start | .stop => []

/-- R204: the bytes of a message the SLE sends. -/
def LinkMessage.bytes : LinkMessage → Bytes
  | .train kind target seq => linkBytes kindTrain 0 (trainBody kind target seq)
  | .request number req => linkBytes kindControlRequest number req.body
  | .packet seqBit data => linkBytes kindBulkPacket (encFlag seqBit) data
  | .cyclicOut flag data => linkBytes kindCyclicOut flag.code data

/-! ### Event records (R189, R201) -/

def SetOutcome.code : SetOutcome → Nat
  | .none => 0 | .pinned _ => 1 | .unavailable _ => 2

def SetOutcome.set : SetOutcome → Option Nat
  | .none => Option.none | .pinned n => some n.val | .unavailable n => some n.val

/-- R189: the detail of an admission refusal. -/
def Refused.detail : Refused → Bytes
  | .noCycle => []
  | .timing need period => enc32 need ++ enc16 period
  | .bounds direction windowEnd imageLength => enc8 direction.code ++ enc16 windowEnd ++ enc16 imageLength
  | .overlap other live => enc8 other.val ++ enc8 (if live then 2 else 1)

/-- R189: the detail of an event. -/
def EventBody.detail : EventBody → Bytes
  | .milestone state reason sub fault =>
      enc8 state.code ++ (reason.map fun r => enc8 r.code).getD [] ++ (sub.map fun r => enc8 r.code).getD []
        ++ (fault.map fun f => enc8 f.1.code ++ enc16 f.2).getD []
  | .matchDone cls sub substitute position outcome rate adaptations =>
      enc8 cls.code ++ encOpt8 (sub.map SubReason.code) ++ encOpt8 substitute ++ encOpt8 position
        ++ enc8 outcome.code ++ encOpt8 outcome.set ++ encOpt8 (rate.map Fin.val) ++ enc8 adaptations
  | .rateReduced stepFrom stepTo cause => enc8 stepFrom.val ++ enc8 stepTo.val ++ enc8 cause.code
  | .admitRefused refusal => enc8 refusal.reason.code ++ refusal.detail
  | .budgetShort stage increase committed budget => enc8 stage.code ++ enc16 increase ++ enc16 committed ++ enc16 budget
  | .budgetOvercommitted budget committed => enc16 budget ++ enc16 committed
  | .cycleState left entered => enc8 left.code ++ enc8 entered.code
  | .expectChanged state cleared differs => enc8 state.code ++ enc8 (encFlag cleared) ++ enc8 (encFlag differs)
  | .resetDone => []

/-- R201: an event record. -/
def Event.bytes (e : Event) : Bytes :=
  enc8 e.body.code ++ encOpt8 (e.slot.map Fin.val) ++ enc32 e.cycle ++ enc8 e.body.detail.length ++ e.body.detail

/-! ### Records in responses -/

def Revision.bytes (r : Revision) : Bytes := enc8 r.major ++ enc8 r.minor

/-- R202: an identity, 8 bytes. -/
def CardSpec.bytes (c : CardSpec) : Bytes := enc16 c.vendor ++ enc16 c.cardType ++ c.minRev.bytes ++ c.maxRev.bytes

def ExpSub.bytes (e : ExpSub) : Bytes :=
  enc8 e.position ++ enc16 e.type ++ enc8 e.outBytes ++ enc8 e.inBytes ++ enc8 (if e.required then 0 else 1)

/-- R202: the EXP_LOAD layout of a record. -/
def ExpRecord.bytes (r : ExpRecord) : Bytes :=
  enc8 (encFlag r.enabled) ++ r.primary.bytes ++ enc8 r.substitutes.length ++ (r.substitutes.map CardSpec.bytes).flatten
    ++ enc16 r.baseOut ++ enc16 r.baseIn ++ enc8 r.subs.length ++ (r.subs.map ExpSub.bytes).flatten
    ++ encOpt8 (r.set.map Fin.val) ++ enc16 r.outOffset ++ enc16 r.inOffset ++ enc8 r.rateCap.val ++ enc16 r.drawCap
    ++ enc8 r.priority.code ++ enc8 r.admitMode.code ++ enc8 r.fill.code ++ enc8 (encFlag r.recover)

/-- R93: the derived output window length of a record. -/
def ExpRecord.outLength (r : ExpRecord) : Nat := r.baseOut + (r.subs.map ExpSub.outBytes).sum

/-- R93: the derived input window length of a record. -/
def ExpRecord.inLength (r : ExpRecord) : Nat := r.baseIn + (r.subs.map ExpSub.inBytes).sum

def SubModule.bytes (m : SubModule) : Bytes :=
  enc8 m.position ++ enc16 m.type ++ enc8 m.outBytes ++ enc8 m.inBytes ++ enc16 m.outOffset ++ enc16 m.inOffset

/-- R88, R196: an identity record, its fields in the order of R88. -/
def Identity.bytes (i : Identity) : Bytes :=
  enc16 i.vendor ++ enc16 i.cardType ++ i.revision.bytes ++ enc32 i.serial ++ enc16 i.standbyDraw ++ enc16 i.runDraw
    ++ enc8 i.maxRate.val ++ enc16 i.maxBulk ++ enc16 i.baseOut ++ enc16 i.baseIn
    ++ enc8 i.subs.length ++ (i.subs.map SubModule.bytes).flatten ++ enc16 i.co ++ enc16 i.ci
    ++ (match i.param with
        | some p => enc8 1 ++ enc16 p.format ++ enc16 p.maxLength
        | none => enc8 0 ++ zeros 4)

/-- R109, R196: a segment of an adaptation table. DESIGN CHOICE: R200 lists no code for the source; CARD is sent as 1 and the card
offset, FILL as 0 and two zeros (log entry 27). -/
def Segment.bytes (g : Segment) : Bytes :=
  enc16 g.offset ++ enc16 g.length ++
    match g.source with
    | .card offset => enc8 1 ++ enc16 offset
    | .fill => enc8 0 ++ zeros 2

def Span.bytes (w : Span) : Bytes := enc16 w.offset ++ enc16 w.length

/-- R111, R196: an admitted layout, its parts in the order of R111. -/
def Layout.bytes (l : Layout) : Bytes :=
  l.outWindow.bytes ++ l.inWindow.bytes
    ++ enc8 l.outTable.length ++ (l.outTable.map Segment.bytes).flatten
    ++ enc8 l.inTable.length ++ (l.inTable.map Segment.bytes).flatten
    ++ enc8 l.fill.code ++ encOpt8 (l.set.map Fin.val) ++ enc8 (encFlag l.adapted)

/-- An optional record: a presence byte, then the record, or as many zeros as its parts of fixed width take (R196). -/
def encOptRecord (absent : Nat) : Option Bytes → Bytes
  | some bs => enc8 1 ++ bs
  | none => enc8 0 ++ zeros absent

def FaultRecord.bytes (f : FaultRecord) : Bytes :=
  enc8 f.kind.code ++ enc8 f.stateAt.code ++ enc16 f.detail ++ enc8 f.attempts

def MatchResult.bytes (m : MatchResult) : Bytes :=
  enc8 m.cls.code ++ encOpt8 (m.sub.map SubReason.code) ++ encOpt8 m.substitute

/-- Several flags in one byte, the first listed in bit 0 (R196). -/
def flagByte : List Bool → Nat
  | [] => 0
  | b :: bs => encFlag b + 2 * flagByte bs

/-- R32, R196: the data of a SLOT_READ response. The flags share the byte at the place of the first, the hold flag in bit 0; then, as
listed, the switch, the hold point, and last the lost mark of R55 (log entry 6). DESIGN CHOICE: the headroom, whose width R196 does
not name, has 2 bytes (log entry 27). -/
def SlotReport.bytes (r : SlotReport) : Bytes :=
  let c := r.ctx
  enc8 c.state.code ++ encOpt8 (c.reason.map Reason.code) ++ encOptRecord 5 (c.fault.map FaultRecord.bytes)
    ++ enc8 c.attempts ++ enc16 c.goodRun ++ enc8 (flagByte [c.hold, r.switchOn, r.atHoldPoint, r.lost])
    ++ encOptRecord 31 (c.identity.map Identity.bytes) ++ encOptRecord 3 (c.result.map MatchResult.bytes)
    ++ encOptRecord 13 (c.layout.map Layout.bytes) ++ enc8 c.rateCode.val ++ enc16 c.heldDraw
    ++ encOpt8 (c.pinned.map Fin.val) ++ enc8 c.missCount ++ encOpt16 c.progress
    ++ enc8 r.link.code ++ enc16 r.headroom

def PowerEntry.bytes (e : PowerEntry) : Bytes :=
  enc8 e.slot.val ++ enc8 e.stage.code ++ enc16 e.increase ++ enc8 e.priority.code

def SetReport.bytes (r : SetReport) : Bytes :=
  enc8 r.state.code ++ enc16 r.format ++ enc16 r.length ++ enc16 r.sum16 ++ enc8 r.blocks ++ enc8 r.pins

/-- The span of a window, 0 and 0 for a VACANT one (R173). -/
def Window.span : Window → Span
  | .vacant => { offset := 0, length := 0 }
  | .armed w | .live w | .retiring w => w

/-- R173: one window of a MAP_READ response. DESIGN CHOICE: the status input state stands behind its window, and has no byte for a
window that is not a LIVE input window (log entry 27). -/
def windowBytes (slot : Nat) (d : Direction) (w : Window) (status : Option StatusInput) : Bytes :=
  enc8 slot ++ enc8 d.code ++ enc8 w.code ++ w.span.bytes ++ (status.map fun x => enc8 x.code).getD []

def MapReport.bytes (slot : Nat) (r : MapReport) : Bytes :=
  windowBytes slot .output r.output none ++ windowBytes slot .input r.input r.status

def mapReportBytes : Nat → List MapReport → Bytes
  | _, [] => []
  | k, r :: rs => r.bytes k ++ mapReportBytes (k + 1) rs

/-- R184: the data of a SEG_IDENT response. DESIGN CHOICE: the part code, whose width R196 does not name, has 2 bytes (log entry 27). -/
def identBytes : Bytes :=
  enc16 1805 ++ enc16 1212 ++ enc8 1 ++ enc8 0 ++ enc8 12 ++ enc16 Config.storeBlocks ++ enc8 64
    ++ enc8 Config.eventCapacity ++ enc8 Config.requestCapacity

/-- R180: the payload bytes of a response. DESIGN CHOICE: the mark none of EXP_READ is the one byte 255, and the 64 sets of PSET_LIST
and the 24 windows of MAP_READ, whose number is fixed, have no count before them (log entry 27). -/
def Payload.encode : Payload → Bytes
  | .none => []
  | .ident => identBytes
  | .cycle period outLength inLength reserve down up =>
      enc16 period ++ enc16 outLength ++ enc16 inLength ++ enc16 reserve ++ enc32 down ++ enc32 up
  | .lineTiming upstream => [Config.trunkLineCode upstream]
  | .slotTiming which need => enc8 which.val ++ enc32 need
  | .outOfBounds which direction => enc8 which.val ++ enc8 direction.code
  | .power budget committed owner queue =>
      enc16 budget ++ enc16 committed ++ encOpt8 (owner.map Fin.val) ++ enc8 queue.length
        ++ (queue.map PowerEntry.bytes).flatten
  | .attention interval moderation queued => enc16 interval ++ enc16 moderation ++ enc8 queued
  | .windowLengths output input => enc16 output ++ enc16 input
  | .record (some r) => r.bytes ++ enc16 r.outLength ++ enc16 r.inLength
  | .record Option.none => enc8 255
  | .freeBlocks count => enc16 count
  | .written length count => enc16 length ++ enc16 count
  | .closed length sum16 => enc16 length ++ enc16 sum16
  | .bytes bs => bs
  | .sets count list => enc16 count ++ (list.map SetReport.bytes).flatten
  | .slot report => report.bytes
  | .map outLength inLength slots => enc16 outLength ++ enc16 inLength ++ mapReportBytes 0 slots
  | .events lost left records =>
      enc8 (encFlag lost) ++ enc8 records.length ++ enc8 left ++ (records.map Event.bytes).flatten

/-- R180, R199: the frame of a service response. -/
def Response.bytes (r : Response) : Bytes :=
  let data := r.answer.payload.encode
  withCrc32 (enc8 4 ++ [r.tag, r.code, r.target] ++ enc8 r.answer.completion.code ++ enc8 r.answer.field
    ++ enc16 data.length ++ data)

/-! ### Return frames (R149, R199) -/

/-- R199: a status entry, bits 0 and 1 of its second byte the input state and bit 7 the adapted flag. -/
def StatusEntry.bytes (e : StatusEntry) : Bytes :=
  enc8 e.phase.code ++ enc8 (e.input.code + if e.adapted then 128 else 0)

/-- R149, R199: the frame of a return frame. -/
def ReturnFrame.bytes (f : ReturnFrame) : Bytes :=
  withCrc32 (enc8 3 ++ enc8 f.mode.code ++ enc8 (flagByte [f.attention, f.rejected]) ++ enc32 f.cycle
    ++ enc16 f.image.length ++ enc8 0 ++ (f.status.map StatusEntry.bytes).flatten ++ f.image)

end Sys2Proof.Machine
end

