-- ==== Sys2Proof/Machine/Operands.lean ====
section
/-! DEFINITION. The operands of the service requests: targets (R179), 16-bit payload fields, and the EXP_LOAD payload with
its implied length, its field checks and the record it carries (R95, R202). -/

namespace Sys2Proof.Machine

/-! ### Targets (R174, R179) -/

/-- A target that names a slot, 0 to 11. -/
def slotTarget (b : Byte) : Option SlotIx := if h : b.toNat < 12 then some ⟨b.toNat, h⟩ else none

/-- A target that names a parameter set, 0 to 63. -/
def setTarget (b : Byte) : Option SetIx := if h : b.toNat < 64 then some ⟨b.toNat, h⟩ else none

/-- The target SEGMENT, 255. -/
def segmentTarget (b : Byte) : Bool := decide (b.toNat = 255)

/-- R178 step 3, its first sentence: the payload length field agrees with the payload bytes received and is at most 512. -/
def Request.lengthAgrees (r : Request) : Bool := decide (r.length.toNat = r.payload.length ∧ r.length.toNat ≤ 512)

/-! ### Order of revisions (00, "Revisions") -/

/-- One revision is not higher than another. -/
def Revision.le (a b : Revision) : Bool := decide (a.major < b.major ∨ (a.major = b.major ∧ a.minor ≤ b.minor))

/-! ### Insertion sort by a key -/

/-- Inserts before the first element whose key is not smaller. -/
def insertBy {α : Type} (key : α → Nat) (a : α) : List α → List α
  | [] => [a]
  | b :: bs => if key a ≤ key b then a :: b :: bs else b :: insertBy key a bs

/-- Sorts in rising order of a key. -/
def sortBy {α : Type} (key : α → Nat) : List α → List α
  | [] => []
  | a :: as => insertBy key a (sortBy key as)

/-! ### The EXP_LOAD payload (R95, R202) -/

/-- The substitute count, as carried. -/
def loadSubstitutes (p : Bytes) : Nat := byteAt p 9

/-- The offset of the base output bytes, behind the substitute list. -/
def loadBaseAt (p : Bytes) : Nat := 10 + 8 * loadSubstitutes p

/-- The sub-module count, as carried. -/
def loadSubs (p : Bytes) : Nat := byteAt p (loadBaseAt p + 4)

/-- The offset of the set number, behind the sub-module list. -/
def loadTailAt (p : Bytes) : Nat := loadBaseAt p + 5 + 6 * loadSubs p

/-- R202: the payload length implied by the two counts as carried. A payload too short to hold a count reads it as 0 and
then never has the implied length. -/
def loadImpliedLength (p : Bytes) : Nat := 27 + 8 * loadSubstitutes p + 6 * loadSubs p

/-- The identity at an offset. -/
def loadCard (p : Bytes) (o : Nat) : CardSpec :=
  { vendor := numAt16 p o, cardType := numAt16 p (o + 2),
    minRev := { major := byteAt p (o + 4), minor := byteAt p (o + 5) },
    maxRev := { major := byteAt p (o + 6), minor := byteAt p (o + 7) } }

/-- The substitute identities, in the order carried. -/
def loadCards (p : Bytes) : List CardSpec := (List.range (loadSubstitutes p)).map fun k => loadCard p (10 + 8 * k)

/-- The sub-module entry at an offset. A requirement code other than REQUIRED 0 is read as OPTIONAL; R95 refuses the codes
that are neither. -/
def loadSub (p : Bytes) (o : Nat) : ExpSub :=
  { position := byteAt p o, type := numAt16 p (o + 1), outBytes := byteAt p (o + 3), inBytes := byteAt p (o + 4),
    required := decide (byteAt p (o + 5) = 0) }

/-- The sub-module entries, in the order carried. -/
def loadEntries (p : Bytes) : List ExpSub :=
  (List.range (loadSubs p)).map fun k => loadSub p (loadBaseAt p + 5 + 6 * k)

/-- The requirement codes of the entries. -/
def loadRequirements (p : Bytes) : List Nat :=
  (List.range (loadSubs p)).map fun k => byteAt p (loadBaseAt p + 5 + 6 * k + 5)

def loadOutLength (p : Bytes) : Nat := numAt16 p (loadBaseAt p) + ((loadEntries p).map ExpSub.outBytes).sum
def loadInLength (p : Bytes) : Nat := numAt16 p (loadBaseAt p + 2) + ((loadEntries p).map ExpSub.inBytes).sum
def loadOutOffset (p : Bytes) : Nat := numAt16 p (loadTailAt p + 1)
def loadInOffset (p : Bytes) : Nat := numAt16 p (loadTailAt p + 3)

/-- A revision range whose minimum is not higher than its maximum (R95, fields 1 and 2). -/
def CardSpec.ordered (c : CardSpec) : Bool := c.minRev.le c.maxRev

/-- R95 step 3: whether the field of an index is out of range. -/
def loadOutOfRange (p : Bytes) : Nat → Bool
  | 0 => decide (byteAt p 0 > 1)
  | 1 => !(loadCard p 1).ordered
  | 2 => decide (loadSubstitutes p > 4) || (loadCards p).any fun c => !c.ordered
  | 3 => decide (numAt16 p (loadBaseAt p) > 256)
  | 4 => decide (numAt16 p (loadBaseAt p + 2) > 256)
  | 5 => decide (loadSubs p > 8) || (loadEntries p).any (fun e => decide (e.position > 7))
      || !decide (((loadEntries p).map ExpSub.position).Nodup) || (loadRequirements p).any (fun c => decide (c > 1))
      || (loadEntries p).any (fun e => decide (e.outBytes > 64 ∨ e.inBytes > 64))
      || decide (loadOutLength p > 256 ∨ loadInLength p > 256)
  | 6 => decide (byteAt p (loadTailAt p) > 63 ∧ byteAt p (loadTailAt p) ≠ 255)
  | 7 => decide (loadOutOffset p > Config.imageMax ∨ loadOutOffset p + loadOutLength p > Config.imageMax)
  | 8 => decide (loadInOffset p > Config.imageMax ∨ loadInOffset p + loadInLength p > Config.imageMax)
  | 9 => decide (byteAt p (loadTailAt p + 5) > 3)
  | 10 => decide (numAt16 p (loadTailAt p + 6) > 4000)
  | 11 => decide (byteAt p (loadTailAt p + 8) > 1)
  | 12 => decide (byteAt p (loadTailAt p + 9) > 1)
  | 13 => decide (byteAt p (loadTailAt p + 10) > 1)
  | 14 => decide (byteAt p (loadTailAt p + 11) > 1)
  | _ => false

/-- R95 step 3: the index of the first field out of range, if any. -/
def loadRangeError (p : Bytes) : Option Nat := (List.range 15).find? (loadOutOfRange p)

/-- R91, R202: the record a payload carries, its sub-module list in ascending order of position. -/
def loadRecord (p : Bytes) : ExpRecord :=
  { enabled := decide (byteAt p 0 = 1)
    primary := loadCard p 1
    substitutes := loadCards p
    baseOut := numAt16 p (loadBaseAt p)
    baseIn := numAt16 p (loadBaseAt p + 2)
    subs := sortBy ExpSub.position (loadEntries p)
    set := if byteAt p (loadTailAt p) = 255 then none else some (Fin.ofNat 64 (byteAt p (loadTailAt p)))
    outOffset := loadOutOffset p
    inOffset := loadInOffset p
    rateCap := Fin.ofNat 4 (byteAt p (loadTailAt p + 5))
    drawCap := numAt16 p (loadTailAt p + 6)
    priority := if byteAt p (loadTailAt p + 8) = 1 then .high else .normal
    admitMode := if byteAt p (loadTailAt p + 9) = 1 then .onRelease else .auto
    fill := if byteAt p (loadTailAt p + 10) = 1 then .hold else .zero
    recover := decide (byteAt p (loadTailAt p + 11) = 1) }

end Sys2Proof.Machine
end

