-- ==== Sys2Proof/Machine/Descriptors.lean ====
section
/-! DEFINITION. The descriptor walk (R82 to R87) and the identity record it builds (R88, R89), as functions of the walk record
and the bytes of a read answer. -/

namespace Sys2Proof.Machine

/-! ### Blocks -/

/-- R76: the known kind of a kind code. -/
def blockKind (code : Nat) : Option BlockKind :=
  if code = 1 then some .ident else if code = 2 then some .supply else if code = 3 then some .link
  else if code = 4 then some .layout else if code = 5 then some .param else none

/-- R76: the minimum body length of a known kind, as the header check uses it. -/
def BlockKind.minimum : BlockKind → Nat
  | .ident => 10 | .supply => 4 | .link => 3 | .layout => 5 | .param => 4

/-- R75, R203: the header in the four bytes read. -/
def headerOf (bs : Bytes) : BlockHeader := { kind := byteAt bs 0, bodyLength := byteAt bs 1, next := numAt16 bs 2 }

/-- A walk's fault: its kind and its 16-bit detail (R87). -/
structure WalkFault where
  kind : FaultKind
  detail : Nat
deriving DecidableEq, Repr

/-- What a walk does on an answer: read on, end complete, or end in a fault. -/
inductive WalkStep where
  | read (walk : Walk) (offset length : Nat)
  | complete (identity : Identity)
  | failed (fault : WalkFault)
deriving DecidableEq, Repr

/-- R82: the walk record on entry to IDENTIFYING. -/
def Walk.initial : Walk :=
  { offset := 0, number := 1, stage := .header, header := none, kinds := [],
    fields := { ident := none, supply := none, link := none, layout := none, param := none } }

/-! ### Header checks (R83) -/

/-- R83: the six checks of a header, in order; the fault of the first that fails. -/
def headerFault (w : Walk) (h : BlockHeader) : Option WalkFault :=
  let known := blockKind h.kind
  if w.number = 1 ∧ known ≠ some .ident then some ⟨.chainOrder, h.kind⟩
  else if h.bodyLength > 252 ∨ w.offset + 4 + h.bodyLength > 1024 then some ⟨.chainRange, w.offset⟩
  else if known.any (fun k => w.kinds.contains k) then some ⟨.chainDup, w.offset⟩
  else if h.next ≠ 0 ∧ (h.next % 4 ≠ 0 ∨ h.next ≥ 1024) then some ⟨.chainRange, h.next⟩
  else if h.next ≠ 0 ∧ w.number = 16 then some ⟨.chainLong, w.offset⟩
  else if known.any (fun k => decide (h.bodyLength < k.minimum)) then some ⟨.blockShort, w.offset⟩
  else none

/-! ### Bodies (R77 to R81, R84) -/

/-- R80: one entry of a LAYOUT body, at its place in the list. -/
def layoutEntry (body : Bytes) (k : Nat) : LayoutEntry :=
  { position := byteAt body (5 + 5 * k), type := numAt16 body (6 + 5 * k), outBytes := byteAt body (8 + 5 * k),
    inBytes := byteAt body (9 + 5 * k) }

/-- R80 step 3: the sub-cause of the first entry that fails, in the order they stand; `earlier` holds the positions seen. -/
def entriesFault (earlier : List Nat) : List LayoutEntry → Option Nat
  | [] => none
  | e :: es =>
    if e.position > 7 then some 2
    else if e.position ∈ earlier then some 3
    else if e.outBytes > 64 ∨ e.inBytes > 64 then some 4
    else entriesFault (earlier ++ [e.position]) es

/-- R80: the fields of a LAYOUT body. -/
def layoutOf (body : Bytes) : LayoutBody :=
  { baseOut := numAt16 body 0, baseIn := numAt16 body 2, entries := (List.range (byteAt body 4)).map (layoutEntry body) }

/-- R80 step 4: the card's totals. -/
def LayoutBody.outTotal (l : LayoutBody) : Nat := l.baseOut + (l.entries.map LayoutEntry.outBytes).sum
def LayoutBody.inTotal (l : LayoutBody) : Nat := l.baseIn + (l.entries.map LayoutEntry.inBytes).sum

/-- R80: the checks of a LAYOUT body, in order. -/
def layoutFault (offset : Nat) (body : Bytes) : Option WalkFault :=
  let count := byteAt body 4
  if count > 8 then some ⟨.layoutBad, 1⟩
  else if body.length < 5 + 5 * count then some ⟨.blockShort, offset⟩
  else match entriesFault [] (layoutOf body).entries with
    | some cause => some ⟨.layoutBad, cause⟩
    | none =>
      if (layoutOf body).outTotal > 256 then some ⟨.layoutBad, 5⟩
      else if (layoutOf body).inTotal > 256 then some ⟨.layoutBad, 6⟩
      else none

/-- R79: a maximum rate code above 3 is recorded as 3. -/
def recordedRate (declared : Nat) : RateCode := Fin.ofNat 4 (min declared 3)

/-- R77: the fields of an IDENT body. -/
def identBodyOf (body : Bytes) : IdentBody :=
  { vendor := numAt16 body 0, cardType := numAt16 body 2,
    revision := { major := byteAt body 4, minor := byteAt body 5 }, serial := numAt32 body 6 }

/-- R84: decodes a whole body by its kind and applies that kind's conditions. -/
def decodeBody (offset : Nat) (kind : BlockKind) (body : Bytes) (g : Gathered) : Except WalkFault Gathered :=
  match kind with
  | .ident => .ok { g with ident := some (identBodyOf body) }
  | .supply => .ok { g with supply := some (numAt16 body 0, numAt16 body 2) }
  | .link =>
      if numAt16 body 1 < 16 then .error ⟨.blockShort, offset⟩
      else .ok { g with link := some (recordedRate (byteAt body 0), min (numAt16 body 1) 256) }
  | .layout =>
      match layoutFault offset body with
      | some f => .error f
      | none => .ok { g with layout := some (layoutOf body) }
  | .param => .ok { g with param := some { format := numAt16 body 0, maxLength := numAt16 body 2 } }

/-! ### The identity record (R88, R89) -/

/-- R89: the sub-module list with its card-image offsets, from the base bytes on. -/
def placeSubs : Nat → Nat → List LayoutEntry → List SubModule
  | _, _, [] => []
  | o, i, e :: es =>
    { position := e.position, type := e.type, outBytes := e.outBytes, inBytes := e.inBytes, outOffset := o, inOffset := i }
      :: placeSubs (o + e.outBytes) (i + e.inBytes) es

/-- R88: the identity record of the gathered fields. -/
def identityOf (ident : IdentBody) (supply : Nat × Nat) (link : RateCode × Nat) (layout : LayoutBody)
    (param : Option ParamDecl) : Identity :=
  { vendor := ident.vendor, cardType := ident.cardType, revision := ident.revision, serial := ident.serial,
    standbyDraw := supply.1, runDraw := supply.2, maxRate := link.1, maxBulk := link.2,
    baseOut := layout.baseOut, baseIn := layout.baseIn,
    subs := placeSubs layout.baseOut layout.baseIn (sortBy LayoutEntry.position layout.entries),
    co := layout.outTotal, ci := layout.inTotal, param := param }

/-- R85: the end of the chain. The mandatory kinds are looked for in the order SUPPLY, LINK, LAYOUT; IDENT is the first block
by check 1 of R83. -/
def finishWalk (g : Gathered) : WalkStep :=
  match g.supply, g.link, g.layout, g.ident with
  | none, _, _, _ => .failed ⟨.chainIncomplete, 2⟩
  | some _, none, _, _ => .failed ⟨.chainIncomplete, 3⟩
  | some _, some _, none, _ => .failed ⟨.chainIncomplete, 4⟩
  | some _, some _, some _, none => .failed ⟨.chainIncomplete, 1⟩
  | some s, some l, some y, some i => .complete (identityOf i s l y g.param)

/-- R85: on to the next offset of the current header. -/
def nextBlock (w : Walk) (next : Nat) : WalkStep :=
  if next = 0 then finishWalk w.fields
  else .read { w with offset := next, number := w.number + 1, stage := .header, header := none } next 4

/-- R83: the answer to a header read. -/
def walkHeader (w : Walk) (bs : Bytes) : WalkStep :=
  let h := headerOf bs
  match headerFault w h with
  | some f => .failed f
  | none =>
    match blockKind h.kind with
    | none => nextBlock w h.next
    | some k =>
      .read { w with stage := .body [], header := some h, kinds := w.kinds ++ [k] } (w.offset + 4) (min 64 h.bodyLength)

/-- R84: the answer to a body read: another piece, or the whole body decoded. -/
def walkBody (w : Walk) (h : BlockHeader) (gathered bs : Bytes) : WalkStep :=
  let body := gathered ++ bs
  if body.length < h.bodyLength then
    .read { w with stage := .body body } (w.offset + 4 + body.length) (min 64 (h.bodyLength - body.length))
  else
    match blockKind h.kind with
    | none => nextBlock w h.next
    | some k =>
      match decodeBody w.offset k body w.fields with
      | .error f => .failed f
      | .ok g => nextBlock { w with fields := g } h.next

/-- R83, R84: one answer of the walk. -/
def walkStep (w : Walk) (bs : Bytes) : WalkStep :=
  match w.stage, w.header with
  | .body gathered, some h => walkBody w h gathered bs
  | _, _ => walkHeader w bs

end Sys2Proof.Machine
end

