-- ==== Sys2Proof/Machine/Matching.lean ====
section
/-! DEFINITION. Matching (R101 to R108) and the admitted layout it builds (R109 to R111), as functions of an identity record
and an expectation record. -/

namespace Sys2Proof.Machine

/-! ### The candidate (R92, R102) -/

/-- R92: a card fits an identity. -/
def Identity.fits (c : Identity) (x : CardSpec) : Bool :=
  decide (c.vendor = x.vendor) && decide (c.cardType = x.cardType) && x.minRev.le c.revision && c.revision.le x.maxRev

/-- The candidate of R102. -/
inductive Candidate where
  | exact
  | substitute (index : Nat)
deriving DecidableEq, Repr

/-- R102: the primary identity first, then the substitutes in list order. -/
def candidate (c : Identity) (r : ExpRecord) : Option Candidate :=
  if c.fits r.primary then some .exact else (r.substitutes.findIdx? c.fits).map Candidate.substitute

def Candidate.index : Candidate → Option Nat
  | .exact => none
  | .substitute k => some k

/-! ### Base data (R103) -/

/-- R103: the card's base bytes of one direction against the expected bytes. -/
def baseAccepted (k : Candidate) (card expected : Nat) : Bool :=
  match k with
  | .exact => decide (card = expected)
  | .substitute _ => decide (card ≤ expected)

/-! ### Sub-modules (R104) -/

/-- The card's sub-module at a position. -/
def Identity.subAt (c : Identity) (position : Nat) : Option SubModule := c.subs.find? fun m => decide (m.position = position)

/-- R104: whether an expected entry is met: mapped, or OPTIONAL and absent. -/
def subAccepted (c : Identity) (e : ExpSub) : Bool :=
  match c.subAt e.position with
  | some m => decide (m.type = e.type ∧ m.outBytes = e.outBytes ∧ m.inBytes = e.inBytes)
  | none => !e.required

/-- R104: the position of the first mismatch, in position order. -/
def subMismatch (c : Identity) (r : ExpRecord) : Option Nat :=
  (r.subs.find? fun e => !subAccepted c e).map ExpSub.position

/-- R104: the card's sub-modules at positions the record does not name. -/
def extras (c : Identity) (r : ExpRecord) : List SubModule :=
  c.subs.filter fun m => !(r.subs.any fun e => decide (e.position = m.position))

/-- R104: the expected sub-modules of a list that the card does not carry. -/
def absentSubs (c : Identity) (subs : List ExpSub) : List ExpSub := subs.filter fun e => (c.subAt e.position).isNone

/-! ### Result (R106, R112) -/

/-- R103, R112: one adaptation for each direction with a base fill. -/
def baseFills (c : Identity) (r : ExpRecord) : Nat :=
  (if c.baseOut < r.baseOut then 1 else 0) + (if c.baseIn < r.baseIn then 1 else 0)

/-- R112: one adaptation for each direction with a base fill, each absent and each extra sub-module. -/
def adaptations (c : Identity) (r : ExpRecord) : Nat := baseFills c r + (absentSubs c r.subs).length + (extras c r).length

/-- R106: EXACT for an exact candidate with no adaptation, COMPATIBLE otherwise. -/
def matchClass (k : Candidate) (c : Identity) (r : ExpRecord) : MatchClass :=
  if k = .exact ∧ adaptations c r = 0 then .exact else .compatible

/-! ### Adaptation tables (R109) -/

/-- A segment, left out when its length is 0. -/
def segment (offset length : Nat) (source : Source) : List Segment :=
  if length = 0 then [] else [{ offset := offset, length := length, source := source }]

/-- R109: the segments of the expected sub-modules of one direction from a window offset on; `bytes` and `card` read the
direction's bytes of an expected entry and its card-image offset on the card. -/
def subSegments (c : Identity) (bytes : ExpSub → Nat) (card : SubModule → Nat) : Nat → List ExpSub → List Segment
  | _, [] => []
  | o, e :: es =>
    segment o (bytes e) (match c.subAt e.position with
      | some m => .card (card m)
      | none => .fill) ++ subSegments c bytes card (o + bytes e) es

/-- R109: the adaptation table of one direction. -/
def adaptationTable (c : Identity) (subs : List ExpSub) (bytes : ExpSub → Nat) (card : SubModule → Nat)
    (cardBase expectedBase : Nat) : List Segment :=
  segment 0 cardBase (.card 0) ++ segment cardBase (expectedBase - cardBase) .fill
    ++ subSegments c bytes card expectedBase subs

def outTable (c : Identity) (r : ExpRecord) : List Segment :=
  adaptationTable c r.subs ExpSub.outBytes SubModule.outOffset c.baseOut r.baseOut

def inTable (c : Identity) (r : ExpRecord) : List Segment :=
  adaptationTable c r.subs ExpSub.inBytes SubModule.inOffset c.baseIn r.baseIn

/-- R111: the admitted layout. -/
def layoutFor (k : Candidate) (c : Identity) (r : ExpRecord) : Layout :=
  { outWindow := { offset := r.outOffset, length := r.outLength }
    inWindow := { offset := r.inOffset, length := r.inLength }
    outTable := outTable c r
    inTable := inTable c r
    fill := r.fill
    set := r.set
    adapted := decide (matchClass k c r = .compatible) }

/-- R108: the chosen rate code. -/
def chosenRate (c : Identity) (r : ExpRecord) : RateCode := min c.maxRate r.rateCap

/-! ### The outcome (R107) -/

/-- The outcome of a matching against an enabled record or none (R107). -/
inductive MatchOutcome where
  | parked (reason : Reason) (result : MatchResult) (position : Option Nat) (outcome : SetOutcome)
      (adaptations : Nat)
  | forward (result : MatchResult) (layout : Layout) (rate : RateCode) (adaptations : Nat)
deriving DecidableEq, Repr

/-- A MISMATCH outcome (R107), with the number of adaptations found. -/
def mismatched (sub : SubReason) (substitute position : Option Nat) (count : Nat) : MatchOutcome :=
  .parked .mismatch { cls := .mismatch, sub := some sub, substitute := substitute } position .none count

/-- R103, R112: the adaptations found before matching ends with SIZE: none for an exact candidate, and for a substitute the base fill
on output, if its input is what is too long (DEDUCED, log entry 3). -/
def foundBySize (k : Candidate) (c : Identity) (r : ExpRecord) : Nat :=
  match k with
  | .exact => 0
  | .substitute _ => if c.baseOut < r.baseOut then 1 else 0

/-- R104, R112: the adaptations found before matching ends with SUBMOD: the base fills, and the absent sub-modules before the first
mismatch; extra ones are looked for only past the end of the list (DEDUCED, log entry 3). -/
def foundBySubs (c : Identity) (r : ExpRecord) : Nat :=
  baseFills c r + (absentSubs c (r.subs.takeWhile (subAccepted c))).length

/-- R106: the class, then the set. -/
def settle (closed : SetIx → Bool) (k : Candidate) (c : Identity) (r : ExpRecord) : MatchOutcome :=
  let result : MatchResult := { cls := matchClass k c r, sub := none, substitute := k.index }
  match r.set with
  | some n =>
    if closed n then .forward result (layoutFor k c r) (chosenRate c r) (adaptations c r)
    else .parked .setUnavailable result none (.unavailable n) (adaptations c r)
  | none => .forward result (layoutFor k c r) (chosenRate c r) (adaptations c r)

/-- R102 to R106, in order; an outcome carries the adaptations that the steps run have found (R101, R112). Without a record and with
IDENTITY neither R103 nor R104 is run, so there is none; with POWER both have been, so every one has been found. -/
def matchCard (closed : SetIx → Bool) (c : Identity) : Option ExpRecord → MatchOutcome
  | none => .parked .unexpected { cls := .unexpected, sub := none, substitute := none } none .none 0
  | some r =>
    match candidate c r with
    | none => mismatched .identity none none 0
    | some k =>
      if !baseAccepted k c.baseOut r.baseOut || !baseAccepted k c.baseIn r.baseIn then
        mismatched .size k.index none (foundBySize k c r)
      else match subMismatch c r with
        | some p => mismatched .submod k.index (some p) (foundBySubs c r)
        | none =>
          if c.runDraw > r.drawCap then mismatched .power k.index none (adaptations c r)
          else settle closed k c r

end Sys2Proof.Machine
end

