-- ==== Sys2Proof/Machine/Ops.lean ====
section
/-! DEFINITION. The named operations over the state that every block uses: reading and changing a slot's records, posting an
event (R190), and the two orders the spec leaves open. -/

namespace Sys2Proof.Machine

/-! ### Slots -/

/-- The slot of a number. -/
def State.slot (s : State) (i : SlotIx) : Slot := s.slots[i]

def State.ctx (s : State) (i : SlotIx) : Context := (s.slot i).ctx
def State.link (s : State) (i : SlotIx) : LinkEngine := (s.slot i).link
def State.slotPower (s : State) (i : SlotIx) : SlotPower := (s.slot i).power
def State.map (s : State) (i : SlotIx) : SlotMap := (s.slot i).map
def State.expected (s : State) (i : SlotIx) : Option ExpRecord := (s.slot i).expected

/-- Replaces one slot. -/
def State.setSlot (s : State) (i : SlotIx) (x : Slot) : State := { s with slots := s.slots.set i x }

/-- Changes one slot. -/
def modSlot (i : SlotIx) (f : Slot → Slot) (s : State) : State := s.setSlot i (f (s.slot i))

/-- Changes one slot's context. -/
def modCtx (i : SlotIx) (f : Context → Context) (s : State) : State := modSlot i (fun x => { x with ctx := f x.ctx }) s

/-- Changes one slot's link engine. -/
def modLink (i : SlotIx) (f : LinkEngine → LinkEngine) (s : State) : State :=
  modSlot i (fun x => { x with link := f x.link }) s

/-- Changes one slot's power record. -/
def modPower (i : SlotIx) (f : SlotPower → SlotPower) (s : State) : State :=
  modSlot i (fun x => { x with power := f x.power }) s

/-- Changes one slot's part of the map. -/
def modMap (i : SlotIx) (f : SlotMap → SlotMap) (s : State) : State := modSlot i (fun x => { x with map := f x.map }) s

/-- Replaces one slot's place in the ECT. -/
def setExpected (i : SlotIx) (r : Option ExpRecord) (s : State) : State := modSlot i (fun x => { x with expected := r }) s

/-- Changes the rack's power block. -/
def modRack (f : PowerBlock → PowerBlock) (s : State) : State := { s with power := f s.power }

/-- Changes the Trunk Interface record. -/
def modTrunk (f : Trunk → Trunk) (s : State) : State := { s with trunk := f s.trunk }

/-- Changes the request block. -/
def modRequests (f : RequestBlock → RequestBlock) (s : State) : State := { s with requests := f s.requests }

/-- Changes the event block. -/
def modEvents (f : EventBlock → EventBlock) (s : State) : State := { s with events := f s.events }

/-- Changes the Parameter Store. -/
def modStore (f : Store → Store) (s : State) : State := { s with store := f s.store }

/-! ### Events -/

/-- R190: a record is appended while the queue holds fewer than 32, and otherwise discarded with the lost flag set. -/
def EventBlock.append (e : Event) (b : EventBlock) : EventBlock :=
  if b.events.length < Config.eventCapacity then { b with events := b.events ++ [e] } else { b with lost := true }

/-- R188: posts an event, dated with the last good cycle number at this moment. -/
def post (slot : Option SlotIx) (body : EventBody) (s : State) : State :=
  modEvents (EventBlock.append { slot := slot, cycle := s.trunk.lastCycle, body := body }) s

/-! ### Orders the spec leaves open -/

/-- The slots given, in the order of the free rank at this counter; one slot needs no order. -/
def freeOrder (choice : Nat) (slots : List SlotIx) : List SlotIx := sortBy (Config.slotRank choice) slots

/-- The slots that satisfy `p`, in slot order. -/
def State.slotsWhere (s : State) (p : Slot → Bool) : List SlotIx := allSlots.filter fun i => p (s.slot i)

/-- R113, R160, R167: the slots given act one after another, in no fixed order. -/
def forList (which : List SlotIx) (act : SlotIx → State → State) (s : State) : State :=
  (freeOrder s.choices which).foldl (fun t i => act i t) { s with choices := s.choices + 1 }

/-- Slots that act independently of each other, in slot order. -/
def eachSlot (act : SlotIx → State → State) (s : State) : State := allSlots.foldl (fun t i => act i t) s

/-- Two events of one command of which either may be taken first. -/
def eitherOrder (a b : State → State) (s : State) : State :=
  let t := { s with choices := s.choices + 1 }
  if Config.passFirst s.choices then a (b t) else b (a t)

end Sys2Proof.Machine
end

