-- ==== Sys2Proof/Machine/Store.lean ====
section
/-! DEFINITION. The Parameter Store (R115 to R119): the memory of its 256 blocks in one canonical form, the free pool, the
set records, and pins (R127). -/

namespace Sys2Proof.Machine

/-! ### The block memory

A list of (address, byte) pairs, addresses strictly rising, no entry 0. Byte k of block b is at address 256 × b + k. -/

/-- What an unlisted address reads as. The spec gives the blocks no contents at power-on, and no request can read a byte
that no PSET_WRITE has placed (R115), so the value shows nowhere. Log entry 7. -/
def unlistedByte : Byte := 0

/-- Reads one byte of the block memory. -/
def readCell : List Host.Cell → Nat → Byte
  | [], _ => unlistedByte
  | (a, b) :: m, k => if k = a then b else if k < a then unlistedByte else readCell m k

/-- The cell of an address in canonical form: none for the value an unlisted address reads as. -/
def canonicalCell (a : Nat) (b : Byte) : List Host.Cell := if b = unlistedByte then [] else [(a, b)]

/-- Writes one byte of the block memory, keeping the canonical form. -/
def writeCell (m : List Host.Cell) (a : Nat) (b : Byte) : List Host.Cell :=
  match m with
  | [] => canonicalCell a b
  | (c, x) :: rest =>
    if a < c then canonicalCell a b ++ (c, x) :: rest
    else if a = c then canonicalCell a b ++ rest
    else (c, x) :: writeCell rest a b

/-- The canonical form: addresses strictly rising from `low`, and no entry equal to what an unlisted address reads as. -/
def memoryWfFrom : Nat → List Host.Cell → Bool
  | _, [] => true
  | low, (a, b) :: m => decide (low ≤ a) && decide (b ≠ unlistedByte) && memoryWfFrom (a + 1) m

/-- The canonical form of the block memory. -/
def Memory.wf (m : List Host.Cell) : Bool := memoryWfFrom 0 m

/-! ### Set records -/

def Store.set (st : Store) (n : SetIx) : SetRecord := st.sets[n]

def Store.setRecord (n : SetIx) (r : SetRecord) (st : Store) : Store := { st with sets := st.sets.set n r }

/-- R116: the blocks a length needs: the length divided by 256, rounded up. -/
def blocksFor (length : Nat) : Nat := (length + 255) / 256

/-- R115: the free block count. -/
def Store.freeCount (st : Store) : Nat := st.pool.length

/-- R115: blocks return to the pool, which is kept as a set of numbers (here in rising order). -/
def returnBlocks (blocks pool : List Nat) : List Nat := blocks.foldl (fun p b => insertBy id b p) pool

/-- R117: the address of byte offset `o` of a set: the block at place floor(o / 256) of its list, byte o modulo 256. -/
def SetRecord.address (r : SetRecord) (o : Nat) : Nat := r.blocks.getD (o / 256) 0 * 256 + o % 256

/-- R117: byte offset `o` of a set. -/
def Store.byteOf (st : Store) (r : SetRecord) (o : Nat) : Byte := readCell st.memory (r.address o)

/-- R125, R132: the bytes of a set from an offset on. -/
def Store.bytesOf (st : Store) (n : SetIx) (offset length : Nat) : Bytes :=
  (List.range length).map fun k => st.byteOf (st.set n) (offset + k)

/-- Places bytes in a set from an offset on (R117). -/
def placeBytes (r : SetRecord) : Nat → Bytes → List Host.Cell → List Host.Cell
  | _, [], m => m
  | o, b :: bs, m => placeBytes r (o + 1) bs (writeCell m (r.address o) b)

/-- R118: the sum of bytes, taken as numbers. -/
def byteSum (bs : Bytes) : Nat := (bs.map BitVec.toNat).sum

/-- R121: the set becomes OPEN and empty with a format id; its blocks return to the pool. -/
def Store.openSet (n : SetIx) (format : Nat) (st : Store) : Store :=
  let r := st.set n
  { st with
    pool := returnBlocks r.blocks st.pool
    sets := st.sets.set n
      { state := .opened, format := format, length := 0, sum16 := 0, blocks := [], writePointer := some 0, pins := r.pins } }

/-- R122: the blocks a write of `bytes` takes beyond those the set holds. -/
def SetRecord.blocksNeeded (r : SetRecord) (bytes : Bytes) : Nat :=
  blocksFor (r.length + bytes.length) - r.blocks.length

/-- R122: an accepted write takes the new blocks from the pool, lowest number first, places the bytes at the offsets from
the old length on, and advances length, write pointer and sum16. -/
def Store.writeSet (n : SetIx) (bytes : Bytes) (st : Store) : Store :=
  let r := st.set n
  let need := r.blocksNeeded bytes
  let r' : SetRecord :=
    { r with
      blocks := r.blocks ++ st.pool.take need
      length := r.length + bytes.length
      writePointer := some (r.length + bytes.length)
      sum16 := (r.sum16 + byteSum bytes) % 65536 }
  { st with
    pool := st.pool.drop need
    sets := st.sets.set n r'
    memory := placeBytes r' r.length bytes st.memory }

/-- R123: the set becomes CLOSED and loses its write pointer. -/
def Store.closeSet (n : SetIx) (st : Store) : Store :=
  st.setRecord n { st.set n with state := .closed, writePointer := none }

/-- R124: the set's blocks return to the pool and it becomes FREE. -/
def Store.dropSet (n : SetIx) (st : Store) : Store :=
  { st with pool := returnBlocks (st.set n).blocks st.pool, sets := st.sets.set n SetRecord.reset }

/-- R127: a pin. -/
def Store.pin (n : SetIx) (st : Store) : Store := st.setRecord n { st.set n with pins := (st.set n).pins + 1 }

/-- R127: the release of a pin. -/
def Store.unpin (n : SetIx) (st : Store) : Store := st.setRecord n { st.set n with pins := (st.set n).pins - 1 }

/-- R119: every pin count becomes 0 at SEG_RESET. -/
def Store.clearPins (st : Store) : Store := { st with sets := st.sets.map fun r => { r with pins := 0 } }

/-- R106: a set is available to matching while it is CLOSED. -/
def Store.isClosed (st : Store) (n : SetIx) : Bool := decide ((st.set n).state = .closed)

end Sys2Proof.Machine
end

