-- ==== Sys2Proof/Machine/Link.lean ====
section
/-! DEFINITION. The slot link engine (R52 to R72) up to its reports: sending with the turnaround, training, the control pipe and
the bulk pipe. What the slot context does with a report is in Context.lean. -/

namespace Sys2Proof.Machine

/-! ### Rates and timeouts -/

/-- R52: the time of one byte at a rate code, in ns. -/
def byteTime (c : RateCode) : Nat :=
  match c.val with
  | 0 => 1600
  | 1 => 800
  | 2 => 400
  | _ => 200

/-- R61: the answer timeout of a control request. -/
def ControlReq.timeout : ControlReq → Nat
  | .paramEnd => Config.paramEndTimeout
  | _ => Config.controlTimeout

/-- R61: the length of the data of an OK answer. -/
def ControlReq.answerLength : ControlReq → Nat
  | .readDescriptor _ length => length
  | _ => 0

/-! ### The record (R54, R55) -/

/-- R54: a link that goes DOWN; the link-alive line is an input and stays. -/
def LinkEngine.down (l : LinkEngine) : LinkEngine := LinkEngine.reset l.alive l.absenceReported

/-- R56: the carrier watch is turned on; an absence that already stands, and has not been reported, is counted from here. -/
def LinkEngine.watchOn (l : LinkEngine) : LinkEngine :=
  if l.watch then l
  else { l with watch := true
                absenceTimer := if l.alive || l.absenceReported then none else some Config.absenceInterval }

/-- R56: the carrier watch is turned off, and the absence count with it. -/
def LinkEngine.watchOff (l : LinkEngine) : LinkEngine := { l with watch := false, absenceTimer := none }

/-- R52: the turnaround starts at the end of a message or of a wait. -/
def LinkEngine.turn (l : LinkEngine) : LinkEngine := { l with turnaround := some Config.turnaroundInterval }

/-- R55: entry to TRAINING; failures and consecutive echoes are cleared. -/
def LinkEngine.train (kind : TrainKind) (target : RateCode) (l : LinkEngine) : LinkEngine :=
  { l with link := .training, training := some (kind, target), failures := 0, echoes := 0, attemptTimer := none,
           echoTimer := none }

/-- R55, R58, R64: entry to a base training. Whatever the engine had in progress is abandoned without a report and its timers
are stopped. The pair is not quiet sooner for it (R52): a message being sent leaves it whole, and a turnaround goes on. -/
def LinkEngine.trainBase (l : LinkEngine) : LinkEngine :=
  let l := (l.train .base 0).watchOff
  { l with seq := 0, requestNumber := 0, lost := false, pipe := .idle, bulk := none, exchange := none, answerTimer := none,
           next := none }

/-- R55: entry to UP at a code. -/
def LinkEngine.reach (l : LinkEngine) : LinkEngine :=
  { l with link := .up, training := none, attemptTimer := none, echoTimer := none, next := none }.watchOn

/-- Whether what waits to be sent is a CYCLIC_OUT. -/
def NextSend.isCyclicOut : NextSend → Bool
  | .cyclicOut .. => true
  | .train | .request _ | .again | .packet => false

/-- R70, R71: an exchange that is over or abandoned: a CYCLIC_OUT that still waits is not sent. -/
def LinkEngine.endExchange (l : LinkEngine) : LinkEngine :=
  { l with exchange := none, next := l.next.filter fun x => !x.isCyclicOut }

/-- R52: the pair is not quiet: a turnaround runs, a message of the device is leaving, or the card is still sending. -/
def LinkEngine.occupied (l : LinkEngine) : Bool := l.turnaround.isSome || l.sending.isSome || l.receiving

/-! ### Sending -/

/-- R132: the bytes of the packet in flight, from the pinned set. -/
def packetBytes (i : SlotIx) (b : Bulk) (s : State) : Bytes :=
  match (s.ctx i).pinned with
  | some n => s.store.bytesOf n b.offset b.length
  | none => []

/-- R57, R62, R65, R70: starts the message now. The bytes of a CYCLIC_OUT become the last outputs (R54). -/
def sendNow (i : SlotIx) (x : NextSend) (s : State) : State :=
  modLink i (fun l =>
    match x with
    | .train =>
      match l.training with
      | some (kind, target) =>
        { l with seq := (l.seq + 1) % 256
                 sending := some (.train kind target ((l.seq + 1) % 256))
                 attemptTimer := some (l.attemptTimer.getD Config.attemptInterval) }
      | none => l
    | .request r =>
      { l with requestNumber := (l.requestNumber + 1) % 256
               pipe := .waiting r ((l.requestNumber + 1) % 256) false
               sending := some (.request ((l.requestNumber + 1) % 256) r) }
    | .again =>
      match l.pipe with
      | .waiting r number _ => { l with sending := some (.request number r) }
      | .idle => l
    | .packet =>
      match l.bulk with
      | some b => { l with bulk := some { b with sent := true }
                           sending := some (.packet b.seqBit (packetBytes i b s)) }
      | none => l
    | .cyclicOut flag bytes => { l with sending := some (.cyclicOut flag bytes), lastOutputs := some bytes }) s

/-- R52: sends at once on a quiet pair, and otherwise when the turnaround has ended. -/
def send (i : SlotIx) (x : NextSend) (s : State) : State :=
  if (s.link i).occupied then modLink i (fun l => { l with next := some x }) s else sendNow i x s

/-- R52: the end of the turnaround: what waits is sent, unless the pair is not quiet even now. -/
def turnaroundEnds (i : SlotIx) (s : State) : State :=
  if (s.link i).turnaround.isNone then s
  else
    let s1 := modLink i (fun l => { l with turnaround := none }) s
    match (s.link i).next with
    | some x => if (s1.link i).occupied then s1 else sendNow i x (modLink i (fun l => { l with next := none }) s1)
    | none => s1

/-- R57, R62, R65: the timer that starts at the end of a message's last byte, if the message is still the one outstanding: a TRAIN
or a packet with the next one already waiting is not. -/
def LinkEngine.afterSent (m : LinkMessage) (l : LinkEngine) : LinkEngine :=
  match m with
  | .train .. =>
    if l.link = .training ∧ l.next.isNone then { l with echoTimer := some Config.echoWaitInterval } else l
  | .request number _ =>
    match l.pipe with
    | .waiting r n _ => if n = number then { l with answerTimer := some r.timeout } else l
    | .idle => l
  | .packet .. =>
    match l.bulk with
    | some b =>
      if b.backoffTimer.isNone && l.next.isNone then
        { l with bulk := some { b with answerTimer := some Config.bulkAnswerInterval } }
      else l
    | none => l
  | .cyclicOut .. => l

/-- R52, R62: the last byte of a message leaves the pair, and the turnaround starts. -/
def LinkEngine.messageEnds (l : LinkEngine) : LinkEngine :=
  match l.sending with
  | none => l
  | some m => (LinkEngine.afterSent m { l with sending := none }).turn

/-! ### Training (R57 to R60) -/

/-- R55, R58: the context entered LINK_TRAINING: a base training begins. -/
def baseTraining (i : SlotIx) (s : State) : State :=
  send i .train (modCtx i (fun c => { c with rateCode := 0 }) (modLink i LinkEngine.trainBase s))

/-- R59: SET_RATE was answered OK: a rate training begins at the code it carried. -/
def rateTraining (i : SlotIx) (target : RateCode) (s : State) : State :=
  send i .train (modLink i (LinkEngine.train .rate target) s)

/-- R57: a good echo repeats the body of the TRAIN last sent. -/
def LinkEngine.echoGood (l : LinkEngine) (m : Option LinkFrame) : Bool :=
  match m, l.training with
  | some f, some (kind, target) =>
    decide (f.kind = kindTrainEcho) && decide (f.body = trainBody kind target l.seq)
  | _, _ => false

/-- The rate code one below. -/
def lowerCode (c : RateCode) : RateCode := Fin.ofNat 4 (c.val - 1)

/-! ### The bulk pipe (R65 to R69) -/

/-- R65: a bulk transfer of `total` bytes at its start. -/
def Bulk.start (total packetSize : Nat) : Bulk :=
  { total := total, packetSize := packetSize, offset := 0, length := min packetSize total, seqBit := false, resends := 0,
    sent := false, answerTimer := none, backoffTimer := none, waitTimer := none }

/-- R66: the next packet after an acknowledgement. -/
def Bulk.advance (b : Bulk) : Bulk :=
  { b with offset := b.offset + b.length
           length := min b.packetSize (b.total - (b.offset + b.length))
           seqBit := !b.seqBit, resends := 0, sent := false, answerTimer := none, waitTimer := none }

/-- R68: a BULK_WAIT. -/
def Bulk.wait (b : Bulk) : Bulk :=
  { b with resends := 0, answerTimer := none, backoffTimer := some Config.bulkBackoffInterval
           waitTimer := some (b.waitTimer.getD Config.bulkWaitInterval) }

/-- R67: a packet is answered while it has been sent and no backoff runs (R53: otherwise no message is outstanding). -/
def Bulk.awaiting (b : Bulk) : Bool := b.sent && b.backoffTimer.isNone

end Sys2Proof.Machine
end

