-- ==== Sys2Proof/Machine/Admission.lean ====
section
/-! DEFINITION. The slot check and headroom (R156, R157), the segment timing check (R153) and the admission check (R158). -/

namespace Sys2Proof.Machine

/-! ### Times, in ns -/

/-- R156: D, the time to receive the cycle frame. -/
def frameTime (outLength : Nat) : Nat := (14 + outLength) * 100

/-- R156: S, the time of one cyclic exchange. -/
def exchangeTime (rate : RateCode) (co ci : Nat) : Nat := (12 + co + ci) * byteTime rate + 2000

/-- R156: the need. -/
def slotNeed (outLength : Nat) (rate : RateCode) (co ci : Nat) : Nat :=
  frameTime outLength + exchangeTime rate co ci + Config.gatherMargin

/-- R153: the downstream need. -/
def downNeed (outLength reserve : Nat) : Nat := (14 + outLength + 12 + reserve) * 100

/-- R153: the upstream need. -/
def upNeed (inLength reserve : Nat) : Nat := (38 + inLength + 12 + reserve) * 100

/-- The card's output total, 0 without an identity record. -/
def Context.co (c : Context) : Nat := (c.identity.map Identity.co).getD 0

/-- The card's input total, 0 without an identity record. -/
def Context.ci (c : Context) : Nat := (c.identity.map Identity.ci).getD 0

/-- R156: the need of a context under an output image length. -/
def Context.need (c : Context) (outLength : Nat) : Nat := slotNeed outLength c.rateCode c.co c.ci

/-- R156: the slot check. -/
def Context.fitsCycle (c : Context) (period outLength : Nat) : Bool := decide (c.need outLength ≤ period * 1000)

/-- R157: the headroom, in µs. -/
def Context.headroom (c : Context) (period outLength : Nat) : Nat :=
  if period = 0 ∨ c.layout = none ∨ c.fitsCycle period outLength = false then 0
  else (period * 1000 - c.need outLength) / 1000

/-! ### Windows -/

def Window.isArmed : Window → Bool
  | .armed _ => true
  | _ => false

def Window.isLive : Window → Bool
  | .live _ => true
  | _ => false

def Window.isRetiring : Window → Bool
  | .retiring _ => true
  | _ => false

/-- The span of an ARMED or LIVE window. -/
def Window.claimed : Window → Option Span
  | .armed w | .live w => some w
  | _ => none

def Span.finish (w : Span) : Nat := w.offset + w.length

/-- R158: two windows share a byte; one of length 0 shares none. -/
def Span.overlaps (a b : Span) : Bool :=
  decide (a.length ≠ 0 ∧ b.length ≠ 0 ∧ a.offset < b.finish ∧ b.offset < a.finish)

/-- R158, R159: the lowest-numbered other slot whose ARMED or LIVE input window overlaps, and whether that window is LIVE. -/
def State.overlapping (s : State) (i : SlotIx) (w : Span) : Option (SlotIx × Bool) :=
  (allSlots.find? fun j => decide (j ≠ i) && ((s.map j).input.claimed.any fun v => w.overlaps v)).map
    fun j => (j, (s.map j).input.isLive)

/-- The window of an admitted layout in a direction, empty without a layout. -/
def Context.window (c : Context) (d : Direction) : Span :=
  match c.layout, d with
  | some l, .output => l.outWindow
  | some l, .input => l.inWindow
  | none, _ => { offset := 0, length := 0 }

/-- R158: the admission check: the first condition that fails, with the figures of R159. -/
def State.admission (s : State) (i : SlotIx) : Option Refused :=
  let c := s.ctx i
  let t := s.trunk
  if t.period = 0 then some .noCycle
  else if c.fitsCycle t.period t.outLength = false then some (.timing (c.need t.outLength) t.period)
  else if (c.window .output).finish > t.outLength then some (.bounds .output (c.window .output).finish t.outLength)
  else if (c.window .input).finish > t.inLength then some (.bounds .input (c.window .input).finish t.inLength)
  else (s.overlapping i (c.window .input)).map fun o => .overlap o.1 o.2

end Sys2Proof.Machine
end

