-- ==== Sys2Proof/Machine/Power.lean ====
section
/-! DEFINITION. The Power Controller: the switch (R37), the power-up queue (R45, R46), the inrush arbiter (R47 to R49) and the
presence debouncer (R33 to R36). -/

namespace Sys2Proof.Machine

/-! ### The arbiter -/

/-- R46: queue order: HIGH before NORMAL, within one priority by arrival. -/
def queueOrder (q : List PowerEntry) : List PowerEntry :=
  q.filter (fun e => decide (e.priority = .high)) ++ q.filter (fun e => decide (e.priority = .normal))

/-- R3, R49: the run draw: the declared run draw, or 150 if that is less. -/
def Context.runDraw (c : Context) : Nat := max Config.standbyDraw ((c.identity.map Identity.runDraw).getD 0)

/-- R45: removes a slot's entry. -/
def leaveQueue (i : SlotIx) (s : State) : State :=
  modRack (fun p => { p with queue := p.queue.filter fun e => decide (e.slot ≠ i) }) s

/-- R48: an entry fits. -/
def State.fits (s : State) (e : PowerEntry) : Bool := decide (s.power.committed + e.increase ≤ s.power.budget)

/-- R48: an examined entry that does not fit is passed over; BUDGET_SHORT is posted the first time. -/
def passOver (e : PowerEntry) (s : State) : State :=
  if e.passedOver then s
  else
    modRack (fun p => { p with queue := p.queue.map fun x => if x.slot = e.slot then { x with passedOver := true } else x })
      (post (some e.slot) (.budgetShort e.stage e.increase s.power.committed s.power.budget) s)

/-- R7, R38, R49: a STANDBY grant. -/
def grantStandby (i : SlotIx) (s : State) : State :=
  modCtx i (fun c => { c with state := .standbyInrush, reason := none, heldDraw := Config.standbyDraw })
    (modPower i (fun p =>
      { p with switchOn := true, goodSeen := false, minimumTimer := some Config.inrushMinimum
               deadlineTimer := some Config.powerGoodDeadline }) s)

/-- R12, R39, R49: a RUN grant; the context sends ENABLE_RUN. -/
def grantRun (i : SlotIx) (s : State) : State :=
  send i (.request .enableRun)
    (modCtx i (fun c => { c with state := .runInrush, reason := none, heldDraw := c.runDraw }) s)

/-- R49: a grant. -/
def grant (e : PowerEntry) (s : State) : State :=
  let s1 := modRack (fun p => { p with committed := p.committed + e.increase, owner := some e.slot }) (leaveQueue e.slot s)
  match e.stage with
  | .standby => grantStandby e.slot s1
  | .run => grantRun e.slot s1

/-- R48: a pass over the entries given, in their order. -/
def examine : List PowerEntry → State → State
  | [], s => s
  | e :: es, s => if s.fits e then grant e s else examine es (passOver e s)

/-- R47: an arbitration pass, made only while the allowance is free. -/
def pass (s : State) : State := if s.power.owner.isSome then s else examine (queueOrder s.power.queue) s

/-- R45, R47: an entry joins the queue, and a pass is made if the allowance is free. The priority is that of the slot's
record, NORMAL without one. -/
def join (i : SlotIx) (stage : Stage) (increase : Nat) (s : State) : State :=
  pass (modRack (fun p => { p with queue := p.queue ++
    [{ slot := i, stage := stage, increase := increase,
       priority := ((s.expected i).map ExpRecord.priority).getD .normal, passedOver := false }] }) s)

/-- R47: a pass beside the report that the same event makes to a context, in either order; with nothing to examine the
report is all. -/
def besidePass (due : Bool) (report : State → State) (s : State) : State :=
  if due && s.power.owner.isNone && !s.power.queue.isEmpty then eitherOrder report pass s else report s

/-! ### The switch -/

/-- R37, R39: a slot gives up the allowance if it holds it. -/
def freeAllowance (i : SlotIx) (s : State) : State :=
  modRack (fun p => { p with owner := if p.owner = some i then none else p.owner }) s

/-- R37: turns a slot's switch OFF: committed power falls by the held draw, the held draw becomes 0, the allowance becomes
free if the slot held it, its inrush timers stop. R70: an exchange in flight is abandoned, and a CYCLIC_OUT that waits is not sent.
A switch already OFF stays. -/
def switchOff (i : SlotIx) (s : State) : State :=
  if (s.slotPower i).switchOn then
    modLink i LinkEngine.endExchange
      (modCtx i (fun c => { c with heldDraw := 0 })
        (modPower i (fun p =>
            { p with switchOn := false, minimumTimer := none, deadlineTimer := none, goodSeen := false, runPhaseTimer := none })
          (freeAllowance i (modRack (fun p => { p with committed := p.committed - (s.ctx i).heldDraw }) s))))
  else s

/-- R20, R39: a retry returns a run-powered card to standby; the run phase timer stops and the allowance becomes free. -/
def backToStandby (i : SlotIx) (s : State) : State :=
  modCtx i (fun c => { c with heldDraw := min c.heldDraw Config.standbyDraw })
    (modPower i (fun p => { p with runPhaseTimer := none })
      (freeAllowance i (modRack (fun p => { p with committed := p.committed - ((s.ctx i).heldDraw - Config.standbyDraw) }) s)))

/-! ### The debouncer -/

/-- R34: an assertion taken in ABSENT with the context EMPTY: RISING with 10 ms, and *assertion* reported (R6: SETTLING). -/
def assertion (i : SlotIx) (s : State) : State :=
  modCtx i (fun c => { c with state := .settling, reason := none })
    (modPower i (fun p =>
      { p with debouncer := .rising Config.debounceShort, presentTimer := some Config.debounceShort, absentTimer := none }) s)

/-- R33, R35, R36: examines a line: an asserted line with the debouncer in ABSENT acts as an assertion. -/
def examineLine (i : SlotIx) (s : State) : State :=
  if (s.slotPower i).line ∧ (s.slotPower i).debouncer = .absent ∧ (s.ctx i).state = .empty then assertion i s else s

/-- R36: SLOT_RESTART takes the debouncer to RISING with 100 ms, on the timer the line calls for. -/
def SlotPower.restart (p : SlotPower) : SlotPower :=
  { p with debouncer := .rising Config.debounceLong
           presentTimer := if p.line then some Config.debounceLong else none
           absentTimer := if p.line then none else some Config.absentInterval }

/-- R34: the line asserts. -/
def SlotPower.asserted (p : SlotPower) : SlotPower :=
  match p.debouncer with
  | .absent => { p with line := true }
  | .rising interval => { p with line := true, presentTimer := some interval, absentTimer := none }
  | .present => { p with line := true, absentTimer := none }

/-- R34: the line drops. -/
def SlotPower.dropped (p : SlotPower) : SlotPower :=
  match p.debouncer with
  | .absent => { p with line := false }
  | .rising _ | .present => { p with line := false, presentTimer := none, absentTimer := some Config.absentInterval }

end Sys2Proof.Machine
end

