-- ==== Sys2Proof/Machine/Context.lean ====
section
/-! DEFINITION. The Slot Context Array: switch-off with releases (R5), the forward path (R6 to R16), faults and retries (R20 to
R23), draining and stopping (R24 to R26), presence loss (R27), matching (R9, R10, R101 to R113), the download (R129 to R135)
and admission (R14, R15, R158 to R163). -/

namespace Sys2Proof.Machine

/-! ### Milestones (R31) -/

/-- R31: the MILESTONE of the state a context now stands in. -/
def milestone (i : SlotIx) (s : State) : State :=
  let c := s.ctx i
  post (some i)
    (match c.state with
     | .parked => .milestone .parked c.reason (if c.reason = some .mismatch then c.result.bind MatchResult.sub else none) none
     | .withdrawn => .milestone .withdrawn c.reason none none
     | .faulted => .milestone .faulted none none (c.fault.map fun f => (f.kind, f.detail))
     | st => .milestone st none none none) s

/-! ### Windows given up -/

/-- R164: the windows changed together; the copy of the tables goes with both, the input record with the input window. -/
def SlotMap.change (f : Window → Window) (m : SlotMap) : SlotMap :=
  let o := f m.output
  let n := f m.input
  { m with output := o, input := n
           tables := if o = .vacant ∧ n = .vacant then none else m.tables
           latest := if n = .vacant then none else m.latest }

/-- R165: disarm. -/
def Window.disarm : Window → Window
  | .armed _ => .vacant
  | w => w

/-- R165: retire. -/
def Window.retire : Window → Window
  | .armed _ => .vacant
  | .live w => .retiring w
  | w => w

def disarm (i : SlotIx) (s : State) : State := modMap i (SlotMap.change Window.disarm) s
def retire (i : SlotIx) (s : State) : State := modMap i (SlotMap.change Window.retire) s

/-! ### Admission (R14, R15, R158 to R162) -/

/-- R14: the check is not made while either of the context's own windows is RETIRING. -/
def State.ownRetiring (s : State) (i : SlotIx) : Bool := (s.map i).output.isRetiring || (s.map i).input.isRetiring

/-- R159: READY with a refusal: the reason is set, and ADMIT_REFUSED posted when it differs from the reason held. -/
def refuseAdmission (i : SlotIx) (r : Refused) (s : State) : State :=
  let held := (s.ctx i).reason
  let s1 := modCtx i (fun c => { c with state := .ready, reason := some r.reason }) s
  if held = some r.reason then s1 else post (some i) (.admitRefused r) s1

/-- R14, R161: the admission check of a READY context with its hold flag clear; a check that passes sends START. -/
def tryAdmit (i : SlotIx) (s : State) : State :=
  if (s.ctx i).state = .ready ∧ (s.ctx i).hold = false ∧ s.ownRetiring i = false then
    match s.admission i with
    | some r => refuseAdmission i r s
    | none => send i (.request .start) (modCtx i (fun c => { c with state := .starting, reason := none }) s)
  else s

/-- R160: every READY context with its hold flag clear checks again. -/
def recheckAll (s : State) : State :=
  forList (s.slotsWhere fun x => decide (x.ctx.state = .ready) && !x.ctx.hold) tryAdmit s

/-- R160: the re-checks that an input window becoming VACANT starts. -/
def recheckIf (due : Bool) (s : State) : State := if due then recheckAll s else s

/-- R13, R14: entry to READY. -/
def enterReady (i : SlotIx) (s : State) : State :=
  tryAdmit i (modCtx i (fun c => { c with state := .ready, reason := none }) s)

/-- R15, R162: START answered OK: the check again, and the windows ARMED or the context back in READY. -/
def armWindows (i : SlotIx) (s : State) : State :=
  match s.admission i with
  | some r => refuseAdmission i r (modCtx i (fun c => { c with reason := none }) s)
  | none =>
    let c := s.ctx i
    modCtx i (fun c => { c with state := .admitPending, reason := none })
      (modMap i (fun m =>
        { m with output := .armed (c.window .output), input := .armed (c.window .input)
                 tables := c.layout.map fun l => { outTable := l.outTable, inTable := l.inTable, fill := l.fill }
                 latest := none }) s)

/-! ### Switch-off with releases (R5) -/

/-- R127: the context's pin is released. -/
def unpin (i : SlotIx) (s : State) : State :=
  match (s.ctx i).pinned with
  | some n => modCtx i (fun c => { c with pinned := none }) (modStore (Store.unpin n) s)
  | none => s

/-- R5: switch-off with releases, as one change: queue entry, switch and draw, pin, link, progress, ARMED windows. R82, R129:
the walk and download records end with the stage. -/
def releases (i : SlotIx) (s : State) : State :=
  disarm i
    (modCtx i (fun c => { c with progress := none, walk := none, download := none })
      (modLink i LinkEngine.down (unpin i (switchOff i (leaveQueue i s)))))

/-- R5, R47, R160: switch-off with releases, then what the context does (`finish`), with the pass that a fall of committed
power starts and the re-checks that a disarmed input window starts. -/
def withReleases (i : SlotIx) (finish : State → State) (s : State) : State :=
  besidePass (s.slotPower i).switchOn (fun t => recheckIf (s.map i).input.isArmed (finish t)) (releases i s)

/-! ### Ends of a bring-up -/

/-- R27: entry to EMPTY from another state; R35: the line is examined. -/
def enterEmpty (i : SlotIx) (s : State) : State :=
  examineLine i (milestone i (modCtx i (fun c => { Context.reset with hold := c.hold }) s))

/-- R29, R30: entry to WITHDRAWN. -/
def enterWithdrawn (i : SlotIx) (reason : Reason) (s : State) : State :=
  milestone i (modCtx i (fun c => { c with state := .withdrawn, reason := some reason }) s)

/-- R21: entry to FAULTED with the fault record given. -/
def enterFaulted (i : SlotIx) (f : Option FaultRecord) (s : State) : State :=
  milestone i (modCtx i (fun c => { c with state := .faulted, reason := none, fault := f }) s)

/-- R21: the fault record of a fault taken now. -/
def Context.record (c : Context) (kind : FaultKind) (detail : Nat) : FaultRecord :=
  { kind := kind, stateAt := c.state, detail := detail, attempts := c.attempts }

/-- R21: a definitive fault. -/
def definitiveFault (i : SlotIx) (kind : FaultKind) (detail : Nat) (s : State) : State :=
  withReleases i (enterFaulted i (some ((s.ctx i).record kind detail))) s

/-- R20: the retry, from the state `s` whose attempts have been raised. -/
def retry (i : SlotIx) (s : State) : State :=
  let s1 := disarm i (unpin i (backToStandby i (leaveQueue i s)))
  let s2 := modCtx i (fun c =>
    { c with state := .linkTraining, reason := none, identity := none, result := none, layout := none, progress := none
             walk := none, download := none }) s1
  besidePass (decide ((s.ctx i).heldDraw > Config.standbyDraw) || decide (s.power.owner = some i))
    (fun t => recheckIf (s.map i).input.isArmed (baseTraining i t)) s2

/-- R20: attempts rise by one and never exceed 3. -/
def raiseAttempts (i : SlotIx) (s : State) : State :=
  modCtx i (fun c => { c with attempts := min Config.attemptsMax (c.attempts + 1) }) s

/-- R20: a transient fault: retry below 3 attempts, FAULTED with ATTEMPTS_EXHAUSTED at 3. -/
def transientFault (i : SlotIx) (kind : FaultKind) (s : State) : State :=
  let s1 := raiseAttempts i s
  if (s1.ctx i).attempts < Config.attemptsMax then retry i s1
  else definitiveFault i .attemptsExhausted kind.code s1

/-! ### Run power (R11, R12) -/

/-- R11: entry to RUN_WAIT and the request for a RUN entry. -/
def enterRunWait (i : SlotIx) (s : State) : State :=
  join i .run ((s.ctx i).runDraw - Config.standbyDraw)
    (modCtx i (fun c => { c with state := .runWait, reason := none }) s)

/-- R11: *link UP* in RATE_TRAINING: hold point 1. -/
def holdPointOne (i : SlotIx) (s : State) : State :=
  if (s.ctx i).state = .rateTraining ∧ (s.ctx i).hold = false then enterRunWait i s else s

/-- R11, R59: rate training has ended: the link is UP and no SET_RATE is outstanding or about to be sent. -/
def LinkEngine.rateSettled (l : LinkEngine) : Bool :=
  decide (l.link = .up) && decide (l.pipe = .idle) && l.next.isNone

/-- R32: the context waits at a hold point. -/
def Slot.atHoldPoint (x : Slot) : Bool :=
  x.ctx.hold && (decide (x.ctx.state = .ready) || (decide (x.ctx.state = .rateTraining) && x.link.rateSettled))

/-! ### Matching (R9, R10, R101 to R113) -/

/-- R107, R112: a matching that ends PARKED. R10: no MILESTONE for the same reason and sub-reason in PARKED. -/
def park (i : SlotIx) (reason : Reason) (result : MatchResult) (position : Option Nat) (outcome : SetOutcome) (count : Nat)
    (s : State) : State :=
  let old := s.ctx i
  let s1 := modCtx i (fun c =>
    { c with state := .parked, reason := some reason, result := some result, layout := none }) s
  let s2 := post (some i) (.matchDone result.cls result.sub result.substitute position outcome none count) s1
  if old.state = .parked ∧ old.reason = some reason ∧ (old.result.bind MatchResult.sub) = result.sub then s2
  else milestone i s2

/-- R106, R127: the set a layout names is pinned for the context. -/
def pinFor (set : Option SetIx) (s : State) : State :=
  match set with
  | some n => modStore (Store.pin n) s
  | none => s

/-- R9, R107: a matching that leads to RATE_TRAINING; R59: the SLE is asked to train at the chosen rate. -/
def goForward (i : SlotIx) (result : MatchResult) (layout : Layout) (rate : RateCode) (onRelease : Bool) (count : Nat)
    (s : State) : State :=
  let s1 := modCtx i (fun c =>
    { c with state := .rateTraining, reason := none, result := some result, layout := some layout
             pinned := layout.set, hold := c.hold || onRelease }) (pinFor layout.set s)
  let outcome := match layout.set with
    | some n => SetOutcome.pinned n
    | none => SetOutcome.none
  let s2 := post (some i) (.matchDone result.cls none result.substitute none outcome (some rate) count) s1
  if rate = 0 then holdPointOne i s2 else send i (.request (.setRate rate)) s2

/-- R101: matching. -/
def runMatching (i : SlotIx) (s : State) : State :=
  match (s.ctx i).identity with
  | none => s
  | some c =>
    match s.expected i with
    | some r =>
      if r.enabled then
        match matchCard s.store.isClosed c (some r) with
        | .parked reason result position outcome count => park i reason result position outcome count s
        | .forward result layout rate count =>
          goForward i result layout rate (decide (r.admitMode = .onRelease)) count s
      else withReleases i (enterWithdrawn i .disabled) s
    | none =>
      match matchCard s.store.isClosed c none with
      | .parked reason result position outcome count => park i reason result position outcome count s
      | .forward result layout rate count => goForward i result layout rate false count s

/-! ### Identification (R8, R82 to R90) -/

/-- R8, R82: entry to IDENTIFYING. -/
def beginWalk (i : SlotIx) (s : State) : State :=
  send i (.request (.readDescriptor 0 4))
    (modCtx i (fun c => { c with state := .identifying, reason := none, walk := some Walk.initial }) s)

/-- R83 to R90: a read answered OK. -/
def readAnswered (i : SlotIx) (data : Bytes) (s : State) : State :=
  match (s.ctx i).walk with
  | none => s
  | some w =>
    match walkStep w data with
    | .read w' offset length =>
      send i (.request (.readDescriptor offset length)) (modCtx i (fun c => { c with walk := some w' }) s)
    | .complete identity => runMatching i (modCtx i (fun c => { c with walk := none, identity := some identity }) s)
    | .failed f => definitiveFault i f.kind f.detail s

/-! ### The download (R129 to R133) -/

def setPhase (i : SlotIx) (phase : DownloadPhase) (s : State) : State :=
  modCtx i (fun c => { c with download := c.download.map fun d => { d with phase := phase } }) s

/-- R129: the download record at entry. -/
def downloadFor (n : SetIx) (c : Context) (s : State) : Download :=
  { phase := .precheck, set := n, length := (s.store.set n).length, format := (s.store.set n).format
    sum16 := (s.store.set n).sum16, packetSize := (c.identity.map Identity.maxBulk).getD 16 }

/-- R130: the check of the set against the card's parameter declaration. -/
def precheck (d : Download) (p : Option ParamDecl) : Option Nat :=
  match p with
  | none => none
  | some p => if d.format ≠ p.format then some 65535 else if d.length > p.maxLength then some 65534 else none

/-- R129, R130, R131: entry to PARAMETERIZING with the set pinned. -/
def enterParameterizing (i : SlotIx) (n : SetIx) (s : State) : State :=
  let c := s.ctx i
  let d := downloadFor n c s
  let s1 := modCtx i (fun c =>
    { c with state := .parameterizing, reason := none, progress := some 0, download := some d }) s
  match precheck d (c.identity.bind Identity.param) with
  | some detail => definitiveFault i .paramRefused detail s1
  | none => send i (.request (.paramBegin d.length d.format d.sum16 d.packetSize)) (setPhase i .begin s1)

/-- R12: the run phase has ended. -/
def runPhaseEnded (i : SlotIx) (s : State) : State :=
  if (s.ctx i).state = .runInrush then
    match (s.ctx i).layout.bind Layout.set with
    | some n => enterParameterizing i n s
    | none => enterReady i s
  else s

/-- R133: phase END: PARAM_END. -/
def bulkComplete (i : SlotIx) (s : State) : State := send i (.request .paramEnd) (setPhase i .finish s)

/-- R131, R65: PARAM_BEGIN answered OK: the bulk transfer starts; an empty set is complete at once. -/
def startTransfer (i : SlotIx) (s : State) : State :=
  match (s.ctx i).download with
  | none => s
  | some d =>
    if d.length = 0 then bulkComplete i s
    else send i .packet (modLink i (fun l => { l with bulk := some (Bulk.start d.length d.packetSize) })
      (setPhase i .transfer s))

/-- R13, R133: PARAM_END answered OK. -/
def downloadComplete (i : SlotIx) (s : State) : State :=
  enterReady i (modCtx i (fun c => { c with progress := none, download := none }) (unpin i s))

/-! ### Draining and stopping (R22 to R26) -/

/-- R22, R24, R27, R29: a RUNNING context's windows retire and it drains. -/
def enterDraining (i : SlotIx) (cause : Reason) (s : State) : State :=
  modCtx i (fun c => { c with state := .draining, reason := some cause }) (retire i s)

/-- R26: the end of the stop. -/
def stopEnded (i : SlotIx) (s : State) : State := withReleases i (enterWithdrawn i .command) s

/-- R25: the fault record of a LINK_LOST drain that does not recover: RUNNING as state at fault. -/
def lostRecord (c : Context) (kind : FaultKind) (detail : Nat) : FaultRecord :=
  { kind := kind, stateAt := .running, detail := detail, attempts := c.attempts }

/-- R25: the recover flag of the record in force, clear without a record. -/
def State.recovers (s : State) (i : SlotIx) : Bool := ((s.expected i).map ExpRecord.recover).getD false

/-- R25: the drain is complete. -/
def drainComplete (i : SlotIx) (s : State) : State :=
  let c := s.ctx i
  match c.reason with
  | some .presenceLost => withReleases i (enterEmpty i) s
  | some .command =>
    if (s.slotPower i).switchOn ∧ (s.link i).link = .up ∧ (s.link i).lost = false then
      send i (.request .stop) (modCtx i (fun c => { c with state := .stopping, reason := some .command }) s)
    else withReleases i (enterWithdrawn i .command) s
  | some .linkLost =>
    if s.recovers i then
      if c.attempts < Config.attemptsMax then retry i s
      else withReleases i (enterFaulted i (some (lostRecord c .attemptsExhausted FaultKind.linkLost.code))) s
    else withReleases i (enterFaulted i (some (lostRecord c .linkLost 0))) s
  | _ => withReleases i (enterFaulted i c.fault) s

/-! ### Reports to a context -/

/-- R17, R23, R24: LINK_LOST. -/
def reportLinkLost (i : SlotIx) (s : State) : State :=
  if (s.ctx i).state = .running then enterDraining i .linkLost (raiseAttempts i s) else s

/-- R6: *present*. -/
def reportPresent (i : SlotIx) (s : State) : State :=
  if (s.ctx i).state = .settling then
    if (s.expected i).any (fun r => !r.enabled) then enterWithdrawn i .disabled s
    else join i .standby Config.standbyDraw (modCtx i (fun c => { c with state := .standbyWait, reason := none }) s)
  else s

/-- R27: *absent*. -/
def reportAbsent (i : SlotIx) (s : State) : State :=
  match (s.ctx i).state with
  | .empty => s
  | .settling => enterEmpty i s
  | .running => withReleases i (enterDraining i .presenceLost) s
  | .draining =>
    if (s.slotPower i).switchOn then withReleases i (modCtx i fun c => { c with reason := some .presenceLost }) s
    else modCtx i (fun c => { c with reason := some .presenceLost }) s
  | _ => withReleases i (enterEmpty i) s

/-- R22: OVERCURRENT; the PWC has already turned the switch OFF. -/
def reportTrip (i : SlotIx) (s : State) : State :=
  let c := s.ctx i
  let f := c.record .overcurrent 0
  match c.state with
  | .running => withReleases i (fun t => enterDraining i .fault (modCtx i (fun c => { c with fault := some f }) t)) s
  | .draining =>
    modCtx i (fun c => { c with fault := some f, reason := if c.reason = some .linkLost then some .fault else c.reason }) s
  | .stopping => withReleases i (fun t => enterWithdrawn i .command (modCtx i (fun c => { c with fault := some f }) t)) s
  | .empty | .settling | .standbyWait | .withdrawn | .faulted => s
  | _ => withReleases i (enterFaulted i (some f)) s

/-- R7: *inrush complete*. -/
def reportInrushComplete (i : SlotIx) (s : State) : State :=
  if (s.ctx i).state = .standbyInrush then
    baseTraining i (modCtx i (fun c => { c with state := .linkTraining, reason := none }) s)
  else s

/-- R20: the states in which LINK_DROP is transient, IDENTIFYING to ADMIT_PENDING. -/
def CtxState.dropTransient : CtxState → Bool
  | .identifying | .parked | .rateTraining | .runWait | .runInrush | .parameterizing | .ready | .starting
  | .admitPending => true
  | _ => false

/-- R20, R26, R56: LINK_DROP. -/
def reportLinkDrop (i : SlotIx) (s : State) : State :=
  if (s.ctx i).state.dropTransient then transientFault i .linkDrop s
  else if (s.ctx i).state = .stopping then stopEnded i s
  else s

/-- R8, R20: LINK_TRAIN. -/
def reportLinkTrain (i : SlotIx) (s : State) : State :=
  if (s.ctx i).state = .linkTraining ∨ (s.ctx i).state = .rateTraining then transientFault i .linkTrain s else s

/-- R8, R11: *link UP* after a training. -/
def reportLinkUp (i : SlotIx) (s : State) : State :=
  match (s.ctx i).state with
  | .linkTraining => beginWalk i s
  | .rateTraining => holdPointOne i s
  | _ => s

/-- R20, R26: CTRL_TIMEOUT. -/
def reportControlTimeout (i : SlotIx) (s : State) : State :=
  match (s.ctx i).state with
  | .identifying | .rateTraining | .runInrush | .parameterizing | .starting => transientFault i .ctrlTimeout s
  | .stopping => stopEnded i s
  | _ => s

/-- R20, R67, R68: BULK_TIMEOUT and PARAM_BUSY_TIMEOUT. -/
def reportBulkFault (i : SlotIx) (kind : FaultKind) (s : State) : State :=
  if (s.ctx i).state = .parameterizing then transientFault i kind s else s

/-- R21, R69: PARAM_STALL. -/
def reportStall (i : SlotIx) (detail : Nat) (s : State) : State :=
  if (s.ctx i).state = .parameterizing then definitiveFault i .paramStall detail s else s

/-- R66, R133: *bulk complete*. -/
def reportBulkComplete (i : SlotIx) (s : State) : State :=
  if (s.ctx i).state = .parameterizing then bulkComplete i s else s

/-- R59: SET_RATE answered REFUSE: RATE_REDUCED, and one code down. -/
def setRateRefused (i : SlotIx) (code : RateCode) (s : State) : State :=
  let lower := lowerCode code
  let s1 := post (some i) (.rateReduced code lower .refused) s
  if lower = 0 then holdPointOne i s1 else send i (.request (.setRate lower)) s1

/-- R8, R11, R12, R13, R15, R26: a control request answered OK, by the rule of the context's state. -/
def reportOk (i : SlotIx) (r : ControlReq) (data : Bytes) (s : State) : State :=
  match (s.ctx i).state, r with
  | .identifying, .readDescriptor .. => readAnswered i data s
  | .rateTraining, .setRate code => rateTraining i code s
  | .runInrush, .enableRun => modPower i (fun p => { p with runPhaseTimer := some Config.runPhaseInterval }) s
  | .parameterizing, .paramBegin .. => startTransfer i s
  | .parameterizing, .paramEnd => downloadComplete i s
  | .starting, .start => armWindows i s
  | .stopping, .stop => stopEnded i s
  | _, _ => s

/-- R12, R15, R26, R59, R86, R131, R133: a control request answered REFUSE with a reason code. -/
def reportRefused (i : SlotIx) (r : ControlReq) (code : Nat) (s : State) : State :=
  match (s.ctx i).state, r with
  | .identifying, .readDescriptor .. => definitiveFault i .descriptorRefused code s
  | .rateTraining, .setRate c => setRateRefused i c s
  | .runInrush, .enableRun => definitiveFault i .runRefused code s
  | .parameterizing, .paramBegin .. => definitiveFault i .paramRefused (min code 65533) s
  | .parameterizing, .paramEnd => definitiveFault i .paramNotAccepted code s
  | .starting, .start => definitiveFault i .startRefused code s
  | .stopping, .stop => stopEnded i s
  | _, _ => s

end Sys2Proof.Machine
end

