-- ==== Sys2Proof/Machine/Flags.lean ====
section
/-! DEFINITION. The flags and the status a return frame carries: the phase, the input state and the adapted flag of a slot
(R150, R171), and the attention flag (R193). -/

namespace Sys2Proof.Machine

/-- R150: the phase of a context state. -/
def CtxState.phase : CtxState → Phase
  | .empty => .empty
  | .settling | .standbyWait | .standbyInrush | .linkTraining | .identifying | .rateTraining | .runWait | .runInrush
  | .parameterizing | .starting | .admitPending => .bringup
  | .parked => .parked
  | .ready => .ready
  | .running | .draining | .stopping => .running
  | .withdrawn => .withdrawn
  | .faulted => .faulted

/-- R171: the bytes a LIVE input window takes for its CARD segments: the latest good inputs, or none (zeros). -/
def carriedInputs (latest : Option Bytes) (input : InputState) (fill : FillPolicy) : Option Bytes :=
  match latest, input, fill with
  | some bs, .fresh, _ => some bs
  | some bs, .stale, .hold => some bs
  | some _, .stale, .zero => none
  | none, _, _ => none

/-- R171: the status input state of a LIVE input window. -/
def liveStatus (latest : Option Bytes) (input : InputState) (fill : FillPolicy) : StatusInput :=
  match latest, input, fill with
  | some _, .fresh, _ => .valid
  | some _, .stale, .hold => .stale
  | some _, .stale, .zero => .filled
  | none, _, _ => .filled

/-- The fill policy of the IMP's copy; ZERO without a copy. -/
def SlotMap.fill (m : SlotMap) : FillPolicy := (m.tables.map TableCopy.fill).getD .zero

/-- R150, R171: the input state of a slot's status entry. -/
def Slot.statusInput (x : Slot) : StatusInput :=
  if x.map.input.isLive then liveStatus x.map.latest x.link.input x.map.fill else .filled

/-- R150: a slot's status entry. -/
def Slot.status (x : Slot) : StatusEntry :=
  { phase := x.ctx.state.phase, input := x.statusInput, adapted := (x.ctx.layout.map Layout.adapted).getD false }

/-- R193: the attention flag. -/
def EventBlock.attention (b : EventBlock) : Bool := !b.events.isEmpty && decide (b.moderation = 0)

end Sys2Proof.Machine
end

