-- ==== Sys2Proof/Machine/ImageMap.lean ====
section
/-! DEFINITION. The Image Mapper and the cyclic exchange: windows at marks and ticks (R165, R167), outputs (R168, R169), inputs
(R170, R171), exchange starts and their conclusions (R70 to R72). -/

namespace Sys2Proof.Machine

/-! ### Exchanges (R70 to R72) -/

def CtxState.exchanges : CtxState → Bool
  | .running | .draining => true
  | _ => false

/-- R70: an exchange is started for the slot. -/
def Slot.mayExchange (x : Slot) : Bool :=
  x.ctx.state.exchanges && x.power.switchOn && decide (x.link.link = .up) && !x.link.lost

/-- R17, R72: a miss: inputs STALE, the miss count up, the run 0; the third sets the lost mark and reports LINK_LOST. -/
def miss (i : SlotIx) (s : State) : State :=
  let s1 := modCtx i (fun c => { c with missCount := min 3 (c.missCount + 1), goodRun := 0 })
    (modLink i (fun l => { l.endExchange with input := .stale }) s)
  if (s1.ctx i).missCount = 3 then reportLinkLost i (modLink i (fun l => { l with lost := true }) s1) else s1

/-- R71: an exchange start concludes the exchange in flight, which is then a miss. If the card is still `sending`
its answer, the rest of it is to be discarded and the pair is not quiet until it ends. -/
def concludeExchange (sending : SlotIx → Bool) (i : SlotIx) (s : State) : State :=
  if (s.ctx i).state.exchanges && (s.link i).exchange.isSome then
    miss i (modLink i (fun l => { l with receiving := l.receiving || sending i }) s)
  else s

/-- R71: an event that may be an exchange start, taken with what the cards are sending at that moment: a free value (log entry 31). -/
def atExchangeStart (act : (SlotIx → Bool) → State → State) (s : State) : State :=
  act (Config.cardSending s.choices) { s with choices := s.choices + 1 }

/-- R70, R71: starts an exchange with a flag and outputs. On a pair that is not quiet the CYCLIC_OUT waits: it follows 1,000 ns
after the pair falls quiet. -/
def startExchange (i : SlotIx) (flag : OutFlag) (outputs : Bytes) (s : State) : State :=
  send i (.cyclicOut flag outputs) (modLink i (fun l => { l with exchange := some flag, next := none }) s)

/-- R70: the outputs of a HOLD exchange: the last outputs, or zeros. -/
def heldOutputs (i : SlotIx) (s : State) : Bytes := (s.link i).lastOutputs.getD (zeros (s.ctx i).co)

/-- R17, R72: a good exchange. -/
def goodExchange (i : SlotIx) (inputs : Bytes) (s : State) : State :=
  modCtx i (fun c =>
    let run := min Config.goodRunMax (c.goodRun + 1)
    { c with missCount := 0, goodRun := run, attempts := if run = Config.goodRunMax then 0 else c.attempts })
    (modMap i (fun m => { m with latest := some inputs })
      (modLink i (fun l => { l with input := .fresh, exchange := none }) s))

/-! ### Outputs (R168, R169) -/

/-- R168: a byte of the source image; zero at or beyond its length or L_out. -/
def sourceByte (source : Bytes) (outLength k : Nat) : Byte := if k < outLength then source.getD k 0 else 0

/-- R169: the card byte at card offset `k`: from the first CARD segment that covers it, otherwise zero. -/
def outputByte (source : Bytes) (outLength offset : Nat) (table : List Segment) (k : Nat) : Byte :=
  match table with
  | [] => 0
  | g :: gs =>
    match g.source with
    | .card c =>
      if c ≤ k ∧ k < c + g.length then sourceByte source outLength (offset + g.offset + (k - c))
      else outputByte source outLength offset gs k
    | .fill => outputByte source outLength offset gs k

/-- R169: the outputs of a slot, from its output window and the IMP's copy of its table. -/
def State.buildOutputs (s : State) (i : SlotIx) (source : Bytes) : Bytes :=
  (List.range (s.ctx i).co).map
    (outputByte source s.trunk.outLength (s.map i).output.span.offset (((s.map i).tables.map TableCopy.outTable).getD []))

/-- R70, R167, R169: the exchange a slot starts at a mark or tick. -/
def startBuilt (flag : OutFlag) (source : Bytes) (i : SlotIx) (s : State) : State :=
  if (s.slot i).mayExchange then startExchange i flag (s.buildOutputs i source) s else s

/-- R70, R144: the exchange a slot starts at a bad frame. -/
def startHold (i : SlotIx) (s : State) : State :=
  if (s.slot i).mayExchange then startExchange i .hold (heldOutputs i s) s else s

/-! ### Windows (R165) -/

/-- R165: what a mark does to a window. -/
def Window.mark : Window → Window
  | .armed w => .live w
  | .retiring _ => .vacant
  | w => w

/-- R165: what a local tick does to a window. -/
def Window.tick : Window → Window
  | .retiring _ => .vacant
  | w => w

/-- R165: the retirement of a slot's windows is reported to its context. -/
def reportVacant (i : SlotIx) (s : State) : State := if (s.ctx i).state = .draining then drainComplete i s else s

/-- R16, R167: ARMED windows become LIVE; the context enters RUNNING. -/
def goLive (i : SlotIx) (s : State) : State :=
  let s1 := modMap i (SlotMap.change Window.mark) s
  if (s.ctx i).state = .admitPending then
    milestone i (modCtx i (fun c => { c with state := .running, reason := none, missCount := 0, goodRun := 0 }) s1)
  else s1

/-- R165: RETIRING windows become VACANT; the context completes its drain. -/
def goVacant (i : SlotIx) (s : State) : State := reportVacant i (modMap i (SlotMap.change Window.tick) s)

/-- R167 step 1: the window changes of one slot at a mark. -/
def markWindows (i : SlotIx) (s : State) : State :=
  if (s.map i).input.isArmed || (s.map i).output.isArmed then goLive i s else goVacant i s

/-- A slot with a window a mark changes. -/
def SlotMap.pendingMark (m : SlotMap) : Bool :=
  m.output.isArmed || m.input.isArmed || m.output.isRetiring || m.input.isRetiring

/-- A slot with a window a tick changes. -/
def SlotMap.pendingTick (m : SlotMap) : Bool := m.output.isRetiring || m.input.isRetiring

/-- R160, R167: the re-checks that the windows a mark or tick made VACANT start. -/
def recheckAfter (changed : List SlotIx) (before after : State) : State :=
  recheckIf (changed.any fun i => (before.map i).input.isRetiring) after

/-! ### Inputs (R171) -/

/-- R171: the byte of a window at window offset `k`, from the segment that covers it: card bytes from the inputs carried,
zeros for a FILL segment. -/
def segmentByte (table : List Segment) (inputs : Option Bytes) (k : Nat) : Byte :=
  match table with
  | [] => 0
  | g :: gs =>
    if g.offset ≤ k ∧ k < g.offset + g.length then
      match g.source, inputs with
      | .card c, some bs => bs.getD (c + (k - g.offset)) 0
      | _, _ => 0
    else segmentByte gs inputs k

/-- The span of a LIVE window. -/
def Window.liveSpan : Window → Option Span
  | .live w => some w
  | _ => none

/-- Whether a slot's LIVE input window covers frame offset `k`. -/
def Slot.coversInput (x : Slot) (k : Nat) : Bool :=
  x.map.input.liveSpan.any fun w => decide (w.offset ≤ k ∧ k < w.finish)

/-- R171: the byte a slot's LIVE input window puts at frame offset `k`. -/
def Slot.inputByte (x : Slot) (k : Nat) : Byte :=
  segmentByte ((x.map.tables.map TableCopy.inTable).getD [])
    (carriedInputs x.map.latest x.link.input x.map.fill) (k - x.map.input.span.offset)

/-- R149, R171: the byte of the input image at frame offset `k`: zero outside every LIVE input window. -/
def State.imageByte (s : State) (k : Nat) : Byte :=
  match allSlots.find? fun i => (s.slot i).coversInput k with
  | some i => (s.slot i).inputByte k
  | none => 0

/-- R171: the input image of a return frame. -/
def State.inputImage (s : State) : Bytes := (List.range s.trunk.inLength).map s.imageByte

/-- R173: the status input states as the frame now assembled reports them. -/
def recordStatus (s : State) : State :=
  eachSlot (fun i t => modMap i (fun m => { m with reported := (s.slot i).statusInput }) t) s

end Sys2Proof.Machine
end

