-- ==== Sys2Proof/Machine/Transmit.lean ====
section
/-! DEFINITION. The Trunk Interface: the upstream transmitter (R140, R182), return frames (R149, R151), cycle marks and bad
frames (R142 to R144), local ticks (R147) and the loss of the cycle (R146). -/

namespace Sys2Proof.Machine

/-! ### The transmitter -/

/-- R182: the response of the head entry, once it is built. -/
def RequestBlock.headResponse (b : RequestBlock) : Option Response :=
  match b.queue with
  | [] => none
  | e :: _ =>
    match e.state with
    | .waiting => none
    | .answered r | .discarded r => some r

/-- R140, R182: the frame a free transmitter takes: a waiting return frame, otherwise the response built earliest. -/
def State.chooseFrame (s : State) : Transmitter :=
  match s.trunk.waiting with
  | some f => .sendingReturn f
  | none =>
    match s.requests.headResponse, s.requests.holding with
    | none, [] => .free
    | some _, [] => .sendingHead
    | none, _ :: _ => .sendingBusy
    | some r, b :: _ => if r.built ≤ b.built then .sendingHead else .sendingBusy

/-- R140: a transmitter whose gap is over starts a frame, if one waits. -/
def startFrame (s : State) : State :=
  modTrunk (fun t =>
    { t with transmitter := s.chooseFrame
             waiting := none }) s

/-- R140: a frame built while the transmitter is free is started at once. -/
def kick (s : State) : State := if s.trunk.transmitter = .free then startFrame s else s

/-! ### Return frames -/

/-- R149, R151: the return frame built now. -/
def State.returnFrame (s : State) (rejected : Bool) : ReturnFrame :=
  { mode := s.trunk.mode, attention := s.events.attention, rejected := rejected, cycle := s.trunk.lastCycle
    status := allSlots.map fun i => (s.slot i).status, image := s.inputImage }

/-- R140, R149: builds the return frame, which replaces one still waiting, and hands it to the transmitter. -/
def buildReturn (rejected : Bool) (s : State) : State :=
  kick (modTrunk (fun t => { t with waiting := some (s.returnFrame rejected) }) (recordStatus s))

/-! ### Modes and marks -/

/-- R143, R145: the TIF's own part of a mark. -/
def markTrunk (number : Nat) (s : State) : State :=
  let mode := s.trunk.mode
  let s1 := modTrunk (fun t =>
    { t with lastCycle := number, rejected := false, mode := .synchronized
             tickTimer := none
             lossTimer := if t.period = 0 then t.lossTimer else some (3 * t.period * 1000) }) s
  if mode = .synchronized then s1 else post none (.cycleState mode .synchronized) s1

/-- R143, R167: a cycle mark. The window changes are those pending when the mark is taken. DESIGN CHOICE: the exchanges in flight
are concluded before them, for DRAINING slots too (log entry 28). -/
def cycleMark (sending : SlotIx → Bool) (number : Nat) (valid : Bool) (image : Bytes) (s : State) : State :=
  let changed := s.slotsWhere fun x => x.map.pendingMark
  let s1 := eachSlot (concludeExchange sending) (markTrunk number s)
  let s2 := recheckAfter changed s1 (forList changed markWindows s1)
  let s3 := { s2 with retained := image }
  buildReturn false (eachSlot (startBuilt (if valid then .valid else .invalid) image) s3)

/-- R144: a bad cycle frame. -/
def badFrame (sending : SlotIx → Bool) (s : State) : State :=
  let s1 := modTrunk (fun t => { t with rejected := true }) s
  if s1.trunk.period = 0 then buildReturn true s1
  else buildReturn true (eachSlot startHold (eachSlot (concludeExchange sending) s1))

/-- R142: a cycle frame. -/
def takeCycleFrame (bs : Bytes) (sending : SlotIx → Bool) (s : State) : State :=
  if goodCycleFrame s.trunk.outLength bs then cycleMark sending (frameNumber bs) (frameValid bs) (frameImage bs) s
  else badFrame sending s

/-- R147: a local tick, the exchanges in flight concluded before the window changes as at a mark (DESIGN CHOICE, log entry 28). -/
def localTick (sending : SlotIx → Bool) (s : State) : State :=
  let changed := s.slotsWhere fun x => x.map.pendingTick
  let s1 := eachSlot (concludeExchange sending) s
  let s2 := recheckAfter changed s1 (forList changed goVacant s1)
  eachSlot (startBuilt .invalid s2.retained) s2

/-- R146: the cycle-loss timer expires. -/
def cycleLost (s : State) : State :=
  let mode := s.trunk.mode
  post none (.cycleState mode .cycleLost)
    (modTrunk (fun t =>
      { t with lossTimer := none, mode := .cycleLost
               tickTimer := if t.period = 0 then none else some (t.period * 1000) }) s)

end Sys2Proof.Machine
end

