-- ==== Sys2Proof/Machine/Resets.lean ====
section
/-! DEFINITION. Power-on and the block resets of SEG_RESET (R2, R51, R54, R119, R141, R164, R168, R170, R185, R194). -/

namespace Sys2Proof.Machine

/-- R33, R36: every presence line is examined; asserted lines are assertions taken in ABSENT. -/
def examineLines (s : State) : State := eachSlot examineLine s

/-- R94, R185: a slot at SEG_RESET: everything at its reset value but the expectation record and the two input lines. -/
def Slot.segReset (x : Slot) : Slot :=
  { ctx := Context.reset, power := SlotPower.reset x.power.line, link := x.link.down, map := SlotMap.reset,
    expected := x.expected }

/-- R141, R145, R147: the TIF at SEG_RESET; a frame being sent is sent to its end (R140). -/
def Trunk.segReset (t : Trunk) : Trunk :=
  { t with mode := .offline, lastCycle := 0, lossTimer := none
           tickTimer := if t.period = 0 then none else some (t.period * 1000)
           rejected := false, waiting := none }

/-- R185: SEG_RESET on every block but the SRQ, and RESET_DONE (R194). -/
def resetBlocks (s : State) : State :=
  post none .resetDone
    { s with
      slots := s.slots.map Slot.segReset
      power := { s.power with committed := 0, queue := [], owner := none }
      trunk := s.trunk.segReset
      store := s.store.clearPins
      events := { s.events with events := [], lost := false, moderation := 0 }
      retained := [] }

/-- R2: power-on: every block at its reset values, the two input lines of each slot at their levels, and every presence line
examined. DESIGN CHOICE: a frame that was being sent is given up and the upstream transmitter is free (log entry 29). The queue of
waiting commands and the counter of choices are the model's own and stay. -/
def powerOn (s : State) : State :=
  examineLines
    { State.reset with
      slots := s.slots.map fun x => Slot.reset x.power.line x.link.alive
      choices := s.choices
      pending := s.pending }

end Sys2Proof.Machine
end

