-- ==== Sys2Proof/Machine/Receive.lean ====
section
/-! DEFINITION. What a slot link engine does with a message of the card (R53, R57, R62 to R72) and when one of its timers
expires (R56, R57, R60, R62, R67, R68). -/

namespace Sys2Proof.Machine

/-! ### Training (R57 to R60) -/

/-- R57: the wait for an echo is over without a good one: consecutive echoes 0, and the next TRAIN after the turnaround. -/
def echoFailed (i : SlotIx) (s : State) : State :=
  send i .train (modLink i (fun l => { l with echoes := 0, echoTimer := none }.turn) s)

/-- R58, R60: the attempt passes: UP at the target code, and *link UP* reported. -/
def attemptPassed (i : SlotIx) (s : State) : State :=
  match (s.link i).training with
  | none => s
  | some (_, target) =>
    reportLinkUp i (modCtx i (fun c => { c with rateCode := target }) (modLink i LinkEngine.reach s))

/-- R57: a good echo: the fourth in a row passes the attempt. -/
def echoCounted (i : SlotIx) (s : State) : State :=
  let s1 := modLink i (fun l => { l with echoes := min 4 (l.echoes + 1), echoTimer := none }) s
  if (s1.link i).echoes = 4 then attemptPassed i s1 else send i .train s1

/-- R53, R57: a message while the link is TRAINING; with no echo awaited it is discarded. -/
def receiveEcho (i : SlotIx) (m : Option LinkFrame) (s : State) : State :=
  if (s.link i).echoTimer.isNone then s
  else if (s.link i).echoGood m then echoCounted i s
  else echoFailed i s

/-- R57: the next attempt at a target begins at once; a TRAIN outstanding is abandoned, and one still being sent leaves the pair
first (R52). -/
def nextAttempt (i : SlotIx) (target : RateCode) (failures : Nat) (s : State) : State :=
  send i .train
    (modLink i (fun l =>
      { l with training := l.training.map (fun t => (t.1, target)), failures := failures, echoes := 0, attemptTimer := none
               echoTimer := none, next := none }) s)

/-- R58, R60: the link FAILED after the third failed attempt, and LINK_TRAIN. -/
def trainingFailed (i : SlotIx) (s : State) : State :=
  reportLinkTrain i
    (modLink i (fun l =>
      { l with link := .failed, training := none, failures := 3, attemptTimer := none, echoTimer := none, next := none }) s)

/-- R57, R58, R60: an attempt fails. -/
def attemptFailed (i : SlotIx) (s : State) : State :=
  match (s.link i).training with
  | none => s
  | some (kind, target) =>
    if (s.link i).attemptTimer.isNone then s
    else if (s.link i).failures + 1 < 3 then nextAttempt i target ((s.link i).failures + 1) s
    else if kind = .rate ∧ target ≠ 0 then
      nextAttempt i (lowerCode target) 0 (post (some i) (.rateReduced target (lowerCode target) .trainFail) s)
    else trainingFailed i s

/-- R57: the echo wait expires. -/
def echoWaitExpired (i : SlotIx) (s : State) : State :=
  if (s.link i).echoTimer.isNone then s else echoFailed i s

/-! ### The control pipe (R62, R63) -/

/-- A control answer as read: OK with its data, or REFUSE with a reason code (R204). -/
inductive ControlReply where
  | ok (data : Bytes)
  | refused (code : Nat)
deriving DecidableEq, Repr

/-- R204: the body of a CONTROL_ANSWER: a result code, 0 with the data or 1 with a 2-byte reason code. -/
def controlReply (body : Bytes) : Option ControlReply :=
  match body with
  | [] => none
  | r :: rest =>
    if r = 0 then some (.ok rest)
    else if r = 1 ∧ rest.length = 2 then some (.refused (numAt16 rest 0))
    else none

/-- R63: the accepted answer to a request of a number. -/
def acceptedReply (r : ControlReq) (number : Nat) (m : Option LinkFrame) : Option ControlReply :=
  match m with
  | none => none
  | some f =>
    if f.kind = kindControlAnswer ∧ f.number = number then
      match controlReply f.body with
      | some (.ok data) => if data.length = r.answerLength then some (.ok data) else none
      | reply => reply
    else none

/-- R63: the answer is handed to the context. -/
def handReply (i : SlotIx) (r : ControlReq) (reply : ControlReply) (s : State) : State :=
  match reply with
  | .ok data => reportOk i r data s
  | .refused code => reportRefused i r code s

/-- R62, R63: a message while a control request is outstanding: accepted, or discarded while the timer runs on. -/
def receiveControl (i : SlotIx) (r : ControlReq) (number : Nat) (m : Option LinkFrame) (s : State) : State :=
  match acceptedReply r number m with
  | none => s
  | some reply =>
    handReply i r reply (modLink i (fun l => { l with pipe := .idle, answerTimer := none, next := none }) s)

/-- R62: the answer timer expires: the request again, or CTRL_TIMEOUT. -/
def controlAnswerExpired (i : SlotIx) (s : State) : State :=
  if (s.link i).answerTimer.isNone then s
  else
    match (s.link i).pipe with
    | .idle => s
    | .waiting r number false =>
      send i .again (modLink i (fun l => { l with pipe := .waiting r number true, answerTimer := none }) s)
    | .waiting _ _ true => reportControlTimeout i (modLink i (fun l => { l with pipe := .idle, answerTimer := none }) s)

/-! ### The bulk pipe (R66 to R69) -/

/-- R67: the packet in flight is resent after the turnaround, or BULK_TIMEOUT. -/
def resendPacket (i : SlotIx) (b : Bulk) (s : State) : State :=
  if b.resends < 3 then
    send i .packet
      (modLink i (fun l => { l with bulk := some { b with resends := b.resends + 1, answerTimer := none } }.turn) s)
  else reportBulkFault i .bulkTimeout (modLink i (fun l => { l with bulk := none }.turn) s)

/-- R66: the packet in flight is acknowledged: the next packet, or *bulk complete*. -/
def packetAcknowledged (i : SlotIx) (b : Bulk) (s : State) : State :=
  let s1 := modCtx i (fun c => { c with progress := some (b.offset + b.length) }) s
  if b.offset + b.length = b.total then reportBulkComplete i (modLink i (fun l => { l with bulk := none, next := none }) s1)
  else send i .packet (modLink i (fun l => { l with bulk := some b.advance }) s1)

/-- R68: a BULK_WAIT. -/
def packetDelayed (i : SlotIx) (b : Bulk) (s : State) : State :=
  modLink i (fun l => { l with bulk := some b.wait, next := none }) s

/-- R69: a BULK_REFUSE. -/
def packetRefused (i : SlotIx) (detail : Nat) (s : State) : State :=
  reportStall i detail (modLink i (fun l => { l with bulk := none }) s)

/-- R66 to R69: a message while a packet is awaited: every message that is no intact answer to it has it resent. -/
def receiveBulk (i : SlotIx) (b : Bulk) (m : Option LinkFrame) (s : State) : State :=
  if b.awaiting = false then s
  else
    match m with
    | none => resendPacket i b s
    | some f =>
      if f.kind = kindBulkAck ∧ f.body = [] ∧ f.number = encFlag b.seqBit then packetAcknowledged i b s
      else if f.kind = kindBulkWait ∧ f.body = [] then packetDelayed i b s
      else if f.kind = kindBulkRefuse ∧ f.body.length = 2 then packetRefused i (numAt16 f.body 0) s
      else resendPacket i b s

/-- R67: the packet's answer timer expires. -/
def bulkAnswerExpired (i : SlotIx) (s : State) : State :=
  match (s.link i).bulk with
  | none => s
  | some b => if b.answerTimer.isNone then s else resendPacket i b s

/-- R68: the backoff timer expires: the same packet again. -/
def backoffExpired (i : SlotIx) (s : State) : State :=
  match (s.link i).bulk with
  | none => s
  | some b =>
    if b.backoffTimer.isNone then s
    else send i .packet (modLink i (fun l => { l with bulk := some { b with backoffTimer := none } }) s)

/-- R68: the wait timer expires: PARAM_BUSY_TIMEOUT. -/
def bulkWaitExpired (i : SlotIx) (s : State) : State :=
  match (s.link i).bulk with
  | none => s
  | some b =>
    if b.waitTimer.isNone then s
    else reportBulkFault i .paramBusyTimeout (modLink i (fun l => { l with bulk := none }) s)

/-! ### Cyclic exchange (R71, R72) -/

/-- R71: a good answer to the exchange in flight of a RUNNING or DRAINING context: its CYCLIC_OUT has left, and the body is exactly
ci bytes. -/
def Slot.goodInputs (x : Slot) (m : Option LinkFrame) : Option Bytes :=
  match m with
  | none => none
  | some f =>
    if f.kind = kindCyclicIn ∧ f.body.length = x.ctx.ci ∧ x.ctx.state.exchanges ∧ x.link.exchange.isSome
        ∧ x.link.sending = none ∧ x.link.next = none then
      some f.body
    else none

/-- R71, R72: a message while neither a request nor a packet is outstanding. -/
def receiveCyclic (i : SlotIx) (m : Option LinkFrame) (s : State) : State :=
  match (s.slot i).goodInputs m with
  | some inputs => goodExchange i inputs s
  | none => s

/-! ### Reception (R53) -/

/-- R53: a message received on an UP link goes to the mechanism that has a message outstanding. -/
def receiveUp (i : SlotIx) (m : Option LinkFrame) (s : State) : State :=
  match (s.link i).bulk, (s.link i).pipe with
  | some b, _ => receiveBulk i b m s
  | none, .waiting r number _ => receiveControl i r number m s
  | none, .idle => receiveCyclic i m s

/-- R53: a message received goes to what the link is doing. -/
def deliver (i : SlotIx) (m : Option LinkFrame) (s : State) : State :=
  match (s.link i).link with
  | .down | .failed => s
  | .training => receiveEcho i m s
  | .up => receiveUp i m s

/-- R52, R53, R71: a message of the card ends, with the bytes given. Whatever becomes of it, the turnaround starts. A message that was
arriving when an exchange start ended its exchange is discarded. -/
def receive (i : SlotIx) (message : Bytes) (s : State) : State :=
  let s1 := modLink i (fun l => { l with receiving := false }.turn) s
  if (s.link i).receiving then s1 else deliver i (parseLink message) s1

/-! ### The link-alive line (R56) -/

/-- R56: the line falls or returns; a level it already has is no change. -/
def aliveChanged (present : Bool) (l : LinkEngine) : LinkEngine :=
  if l.alive = present then l
  else if present then { l with alive := true, absenceTimer := none, absenceReported := false }
  else { l with alive := false, absenceTimer := if l.watch then some Config.absenceInterval else none }

/-- R56: 100 µs of absence under the carrier watch: LINK_DROP, once for each absence. -/
def absenceExpired (i : SlotIx) (s : State) : State :=
  if (s.link i).absenceTimer.isNone then s
  else reportLinkDrop i (modLink i (fun l => { l with absenceTimer := none, absenceReported := true }) s)

end Sys2Proof.Machine
end

