-- ==== Sys2Proof/Machine/Requests.lean ====
section
/-! DEFINITION. The execution of each service request by the block that owns it (R177 to R179), and the Service Request Queue
(R175, R176, R182, R186). -/

namespace Sys2Proof.Machine

/-! ### Answers (R180, R181) -/

/-- A refusal without data. -/
def refuse (c : Completion) : Answer := { completion := c, field := 0, payload := .none }

/-- RANGE with the index of the first field out of range. -/
def refuseRange (index : Nat) : Answer := { completion := .range, field := index, payload := .none }

/-- DONE with data. -/
def done (p : Payload) : Answer := { completion := .done, field := 0, payload := p }

/-- R178: the checks of a SEGMENT request: target, frame length, then the payload lengths it accepts. -/
def segmentRequest (r : Request) (lengthOk : Nat → Bool) (act : State → State × Answer) (s : State) : State × Answer :=
  if segmentTarget r.target = false then (s, refuse .badTarget)
  else if r.lengthAgrees = false ∨ lengthOk r.payload.length = false then (s, refuse .badLength)
  else act s

/-- R178: the checks of a slot request. -/
def slotRequest (r : Request) (lengthOk : Nat → Bool) (act : SlotIx → State → State × Answer) (s : State) :
    State × Answer :=
  match slotTarget r.target with
  | none => (s, refuse .badTarget)
  | some i => if r.lengthAgrees = false ∨ lengthOk r.payload.length = false then (s, refuse .badLength) else act i s

/-- R120, R178: the checks of a set request. -/
def setRequest (r : Request) (lengthOk : Nat → Bool) (act : SetIx → State → State × Answer) (s : State) :
    State × Answer :=
  match setTarget r.target with
  | none => (s, refuse .badTarget)
  | some n => if r.lengthAgrees = false ∨ lengthOk r.payload.length = false then (s, refuse .badLength) else act n s

/-- A payload length that is the only one accepted. -/
def exactly (n : Nat) : Nat → Bool := fun k => decide (k = n)

/-! ### Segment requests -/

/-- R184. -/
def performSegIdent (r : Request) (s : State) : State × Answer :=
  segmentRequest r (exactly 0) (fun s => (s, done .ident)) s

/-- R152 step 3: the first field out of range. -/
def cycleRange (period outLength inLength reserve : Nat) : Option Nat :=
  if period ≠ 0 ∧ (period < 125 ∨ period > 16000) then some 0
  else if outLength > Config.imageMax then some 1
  else if inLength > Config.imageMax then some 2
  else if reserve < 64 ∨ reserve > 1024 then some 3
  else none

/-- R152 step 6: an ARMED or LIVE window outside a new image length. -/
def Window.outside (w : Window) (length : Nat) : Bool := w.claimed.any fun v => decide (v.finish > length)

/-- R152 step 6: the first window out of bounds, in slot order, output before input. -/
def State.firstOutside (s : State) (outLength inLength : Nat) : Option (SlotIx × Direction) :=
  (allSlots.find? fun i => (s.map i).output.outside outLength || (s.map i).input.outside inLength).map fun i =>
    (i, if (s.map i).output.outside outLength then .output else .input)

/-- R152 step 7: the first RUNNING or ADMIT_PENDING slot that fails the slot check. -/
def State.firstUnfit (s : State) (period outLength : Nat) : Option SlotIx :=
  allSlots.find? fun i =>
    (decide ((s.ctx i).state = .running) || decide ((s.ctx i).state = .admitPending))
      && !(s.ctx i).fitsCycle period outLength

/-- R152 steps 3 to 7: the refusal of a new configuration, if any. -/
def State.cycleRefusal (s : State) (period outLength inLength reserve : Nat) : Option Answer :=
  match cycleRange period outLength inLength reserve with
  | some k => some (refuseRange k)
  | none =>
    if period = 0 then
      if allSlots.any (fun i => (s.map i).output.claimed.isSome || (s.map i).input.claimed.isSome) then
        some (refuse .state)
      else none
    else if downNeed outLength reserve > period * 1000 then
      some { completion := .timing, field := 0, payload := .lineTiming false }
    else if upNeed inLength reserve > period * 1000 then
      some { completion := .timing, field := 0, payload := .lineTiming true }
    else match s.firstOutside outLength inLength with
      | some (i, d) => some { completion := .bounds, field := 0, payload := .outOfBounds i d }
      | none =>
        (s.firstUnfit period outLength).map fun i =>
          { completion := .timing, field := 0, payload := .slotTiming i ((s.ctx i).need outLength) }

/-- R154: the configuration replaced and the timer of the mode restarted or stopped. -/
def Trunk.configure (period outLength inLength reserve : Nat) (t : Trunk) : Trunk :=
  let t := { t with period := period, outLength := outLength, inLength := inLength, reserve := reserve }
  if t.mode = .synchronized then { t with lossTimer := if period = 0 then none else some (3 * period * 1000) }
  else { t with tickTimer := if period = 0 then none else some (period * 1000) }

/-- R152, R154. -/
def segCycle (period outLength inLength reserve : Nat) (s : State) : State × Answer :=
  match s.cycleRefusal period outLength inLength reserve with
  | some a => (s, a)
  | none =>
    (recheckAll (modTrunk (Trunk.configure period outLength inLength reserve) s),
      done (.cycle period outLength inLength reserve (downNeed outLength reserve) (upNeed inLength reserve)))

def performSegCycle (r : Request) (s : State) : State × Answer :=
  segmentRequest r (exactly 8)
    (segCycle (numAt16 r.payload 0) (numAt16 r.payload 2) (numAt16 r.payload 4) (numAt16 r.payload 6)) s

/-- R44: the state of the power block. -/
def State.powerPayload (s : State) : Payload :=
  .power s.power.budget s.power.committed s.power.owner (queueOrder s.power.queue)

/-- R42, R44: a budget of 0 to 20,000 becomes the budget in force. DESIGN CHOICE: when it is raised and still stands below committed
power, BUDGET_OVERCOMMITTED is posted before the pass and its BUDGET_SHORT (log entry 30). -/
def setBudget (budget : Nat) (s : State) : State :=
  let s1 := modRack (fun p => { p with budget := budget }) s
  let s2 := if s.power.committed > budget then post none (.budgetOvercommitted budget s.power.committed) s1 else s1
  if s.power.budget < budget then pass s2 else s2

def segBudget (budget : Nat) (s : State) : State × Answer :=
  if budget > Config.budgetMax then (s, refuseRange 0)
  else
    let t := setBudget budget s
    (t, done t.powerPayload)

def performSegBudget (r : Request) (s : State) : State × Answer :=
  segmentRequest r (exactly 2) (segBudget (numAt16 r.payload 0)) s

/-- R192. -/
def segAttn (interval : Nat) (s : State) : State × Answer :=
  (modEvents (fun b => { b with interval := interval }) s,
    done (.attention interval s.events.moderation s.events.events.length))

def performSegAttn (r : Request) (s : State) : State × Answer :=
  segmentRequest r (exactly 2) (segAttn (numAt16 r.payload 0)) s

/-- R185: the reset of the blocks; the presence lines are examined after it. The entries behind it are discarded when its
response has been built (R186, `executeHead`). -/
def performSegReset (r : Request) (s : State) : State × Answer :=
  segmentRequest r (exactly 0) (fun s => (examineLines (resetBlocks s), done .none)) s

/-! ### Requests to the ECT -/

/-- R95, R97: the states that refuse EXP_LOAD and EXP_CLEAR. -/
def CtxState.refusesRecord : CtxState → Bool
  | .rateTraining | .runWait | .runInrush | .parameterizing | .ready | .starting | .admitPending => true
  | _ => false

/-- R96, R99: the states in which a changed record posts EXPECT_CHANGED. -/
def CtxState.postsChange : CtxState → Bool
  | .running | .draining | .stopping => true
  | _ => false

/-- R96: the states in which a disabled record withdraws the slot at once (R30). -/
def CtxState.withdrawnByRecord : CtxState → Bool
  | .standbyWait | .standbyInrush | .linkTraining | .identifying | .parked => true
  | _ => false

/-- R99: the new record would give the slot another placement than the admitted layout. -/
def layoutDiffers (l : Option Layout) (r : ExpRecord) : Bool :=
  match l with
  | none => true
  | some l =>
    decide (l.outWindow ≠ { offset := r.outOffset, length := r.outLength })
      || decide (l.inWindow ≠ { offset := r.inOffset, length := r.inLength })
      || decide (l.fill ≠ r.fill) || decide (l.set ≠ r.set)

/-- R96: what an accepted EXP_LOAD does to the context, after the record has been stored. -/
def actOnLoad (i : SlotIx) (r : ExpRecord) (s : State) : State :=
  let c := s.ctx i
  if c.state.postsChange then post (some i) (.expectChanged c.state false (layoutDiffers c.layout r)) s
  else if r.enabled then (if c.state = .parked then runMatching i s else s)
  else if c.state.withdrawnByRecord then withReleases i (enterWithdrawn i .disabled) s
  else s

/-- R95, R96. -/
def expLoad (p : Bytes) (i : SlotIx) (s : State) : State × Answer :=
  match loadRangeError p with
  | some k => (s, refuseRange k)
  | none =>
    if (s.ctx i).state.refusesRecord then (s, refuse .state)
    else
      let r := loadRecord p
      (actOnLoad i r (setExpected i (some r) s), done (.windowLengths r.outLength r.inLength))

def performExpLoad (r : Request) (s : State) : State × Answer :=
  slotRequest r (fun n => decide (n = loadImpliedLength r.payload)) (expLoad r.payload) s

/-- R97: what an accepted EXP_CLEAR that removed a record does to the context. -/
def actOnClear (i : SlotIx) (s : State) : State :=
  let c := s.ctx i
  if c.state.postsChange then post (some i) (.expectChanged c.state true true) s
  else if c.state = .parked then runMatching i s
  else s

/-- R97. -/
def expClear (i : SlotIx) (s : State) : State × Answer :=
  if (s.ctx i).state.refusesRecord then (s, refuse .state)
  else if (s.expected i).isNone then (s, done .none)
  else (actOnClear i (setExpected i none s), done .none)

def performExpClear (r : Request) (s : State) : State × Answer := slotRequest r (exactly 0) expClear s

/-- R98. -/
def performExpRead (r : Request) (s : State) : State × Answer :=
  slotRequest r (exactly 0) (fun i s => (s, done (.record (s.expected i)))) s

/-! ### Requests to the store -/

/-- R121, R124: a CLOSED set with pins refuses. -/
def SetRecord.pinnedClosed (r : SetRecord) : Bool := decide (r.state = .closed) && decide (r.pins > 0)

/-- R121. -/
def psetOpen (format : Nat) (n : SetIx) (s : State) : State × Answer :=
  if (s.store.set n).pinnedClosed then (s, refuse .pinned)
  else
    let t := modStore (Store.openSet n format) s
    (t, done (.freeBlocks t.store.freeCount))

def performPsetOpen (r : Request) (s : State) : State × Answer :=
  setRequest r (exactly 2) (psetOpen (numAt16 r.payload 0)) s

/-- R122. -/
def psetWrite (bytes : Bytes) (n : SetIx) (s : State) : State × Answer :=
  let x := s.store.set n
  if x.state ≠ .opened then (s, refuse .notOpen)
  else if x.length + bytes.length > Config.setMax then (s, refuse .tooLong)
  else if x.blocksNeeded bytes > s.store.freeCount then (s, refuse .noSpace)
  else
    let t := modStore (Store.writeSet n bytes) s
    (t, done (.written (t.store.set n).length t.store.freeCount))

def performPsetWrite (r : Request) (s : State) : State × Answer :=
  setRequest r (fun k => decide (1 ≤ k ∧ k ≤ 512)) (psetWrite r.payload) s

/-- R113: a context that waits for the closing of set `n`. -/
def Slot.waitsFor (n : SetIx) (x : Slot) : Bool :=
  decide (x.ctx.state = .parked) && decide (x.ctx.reason = some .setUnavailable)
    && decide (x.expected.bind ExpRecord.set = some n)

/-- R123, R113. -/
def psetClose (n : SetIx) (s : State) : State × Answer :=
  if (s.store.set n).state ≠ .opened then (s, refuse .notOpen)
  else
    let s1 := modStore (Store.closeSet n) s
    let t := forList (s1.slotsWhere (Slot.waitsFor n)) runMatching s1
    (t, done (.closed (s1.store.set n).length (s1.store.set n).sum16))

def performPsetClose (r : Request) (s : State) : State × Answer := setRequest r (exactly 0) psetClose s

/-- R124. -/
def psetDrop (n : SetIx) (s : State) : State × Answer :=
  if (s.store.set n).pinnedClosed then (s, refuse .pinned)
  else if (s.store.set n).state = .free then (s, done .none)
  else (modStore (Store.dropSet n) s, done .none)

def performPsetDrop (r : Request) (s : State) : State × Answer := setRequest r (exactly 0) psetDrop s

/-- R125. -/
def psetRead (offset length : Nat) (n : SetIx) (s : State) : State × Answer :=
  let x := s.store.set n
  if x.state = .free then (s, refuse .state)
  else if length > 512 then (s, refuseRange 1)
  else if offset + length > x.length then (s, refuseRange 0)
  else (s, done (.bytes (s.store.bytesOf n offset length)))

def performPsetRead (r : Request) (s : State) : State × Answer :=
  setRequest r (exactly 4) (psetRead (numAt16 r.payload 0) (numAt16 r.payload 2)) s

/-- R126: what PSET_LIST reports of a set. -/
def SetRecord.report (r : SetRecord) : SetReport :=
  { state := r.state, format := r.format, length := r.length, sum16 := r.sum16, blocks := r.blocks.length, pins := r.pins }

/-- R126. -/
def performPsetList (r : Request) (s : State) : State × Answer :=
  segmentRequest r (exactly 0)
    (fun s => (s, done (.sets s.store.freeCount (s.store.sets.toList.map SetRecord.report)))) s

/-! ### Requests to the slot contexts -/

/-- R32: what SLOT_READ reports. -/
def State.slotReport (s : State) (i : SlotIx) : SlotReport :=
  { ctx := s.ctx i, switchOn := (s.slotPower i).switchOn, link := (s.link i).link, lost := (s.link i).lost
    atHoldPoint := (s.slot i).atHoldPoint, headroom := (s.ctx i).headroom s.trunk.period s.trunk.outLength }

def performSlotRead (r : Request) (s : State) : State × Answer :=
  slotRequest r (exactly 0) (fun i s => (s, done (.slot (s.slotReport i)))) s

/-- R18. -/
def slotHold (i : SlotIx) (s : State) : State × Answer := (modCtx i (fun c => { c with hold := true }) s, done .none)

def performSlotHold (r : Request) (s : State) : State × Answer := slotRequest r (exactly 0) slotHold s

/-- R19: the flag is cleared and a context that waits at a hold point goes on. -/
def release (i : SlotIx) (s : State) : State :=
  let s1 := modCtx i (fun c => { c with hold := false }) s
  match (s1.ctx i).state with
  | .rateTraining => if (s1.link i).rateSettled then enterRunWait i s1 else s1
  | .ready => tryAdmit i s1
  | _ => s1

def performSlotRelease (r : Request) (s : State) : State × Answer :=
  slotRequest r (exactly 0) (fun i s => (release i s, done .none)) s

/-- R28: the context in SETTLING, its fields cleared but for the hold flag, and the debouncer restarted (R36). -/
def restartSettling (i : SlotIx) (s : State) : State :=
  modPower i SlotPower.restart
    (modCtx i (fun c => { Context.reset with state := .settling, hold := c.hold }) (retire i s))

/-- R28. -/
def slotRestart (i : SlotIx) (s : State) : State × Answer :=
  if (s.ctx i).state = .empty then (s, refuse .state) else (withReleases i (restartSettling i) s, done .none)

def performSlotRestart (r : Request) (s : State) : State × Answer := slotRequest r (exactly 0) slotRestart s

/-- R29. -/
def withdraw (i : SlotIx) (s : State) : State :=
  match (s.ctx i).state with
  | .empty | .settling | .stopping | .withdrawn => s
  | .running => enterDraining i .command s
  | .draining =>
    modCtx i (fun c => { c with reason := if c.reason = some .presenceLost then c.reason else some .command }) s
  | .faulted => enterWithdrawn i .command s
  | _ => withReleases i (enterWithdrawn i .command) s

def slotWithdraw (i : SlotIx) (s : State) : State × Answer :=
  if (s.ctx i).state = .empty ∨ (s.ctx i).state = .settling then (s, refuse .state) else (withdraw i s, done .none)

def performSlotWithdraw (r : Request) (s : State) : State × Answer := slotRequest r (exactly 0) slotWithdraw s

/-! ### Requests to the IMP and the EVQ -/

/-- R173: what MAP_READ reports of a slot. -/
def SlotMap.report (m : SlotMap) : MapReport :=
  { output := m.output, input := m.input, status := if m.input.isLive then some m.reported else none }

/-- R173. -/
def performMapRead (r : Request) (s : State) : State × Answer :=
  segmentRequest r (exactly 0)
    (fun s => (s, done (.map s.trunk.outLength s.trunk.inLength (allSlots.map fun i => (s.map i).report)))) s

/-- R191. -/
def evtRead (n : Nat) (s : State) : State × Answer :=
  if n > Config.eventCapacity then (s, refuseRange 0)
  else
    (modEvents (fun b => { b with events := b.events.drop n, lost := false, moderation := b.interval }) s,
      done (.events s.events.lost (s.events.events.drop n).length (s.events.events.take n)))

def performEvtRead (r : Request) (s : State) : State × Answer :=
  segmentRequest r (exactly 1) (evtRead (byteAt r.payload 0)) s

/-! ### Execution and the queue -/

/-- R177, R178: the execution of a request by the block that owns it. -/
def perform (r : Request) (s : State) : State × Answer :=
  match requestName r.code with
  | none => (s, refuse .unknown)
  | some .segIdent => performSegIdent r s
  | some .segCycle => performSegCycle r s
  | some .segBudget => performSegBudget r s
  | some .segAttn => performSegAttn r s
  | some .segReset => performSegReset r s
  | some .expLoad => performExpLoad r s
  | some .expClear => performExpClear r s
  | some .expRead => performExpRead r s
  | some .psetOpen => performPsetOpen r s
  | some .psetWrite => performPsetWrite r s
  | some .psetClose => performPsetClose r s
  | some .psetDrop => performPsetDrop r s
  | some .psetRead => performPsetRead r s
  | some .psetList => performPsetList r s
  | some .slotRead => performSlotRead r s
  | some .slotHold => performSlotHold r s
  | some .slotRelease => performSlotRelease r s
  | some .slotRestart => performSlotRestart r s
  | some .slotWithdraw => performSlotWithdraw r s
  | some .mapRead => performMapRead r s
  | some .evtRead => performEvtRead r s

/-- R180: a response to a request. -/
def Request.respond (r : Request) (a : Answer) (built : Nat) : Response :=
  { tag := r.tag, code := r.code, target := r.target, answer := a, built := built }

/-- R175: the head becomes ANSWERED with the response built now. -/
def answerHead (a : Answer) (b : RequestBlock) : RequestBlock :=
  match b.queue with
  | [] => b
  | e :: rest =>
    { b with queue := { e with state := .answered (e.request.respond a b.built) } :: rest, built := b.built + 1 }

/-- R186: the DISCARDED answers, built in arrival order from a moment on. -/
def discardEntries : Nat → List Entry → List Entry
  | _, [] => []
  | k, e :: rest =>
    { e with state := .discarded (e.request.respond (refuse .discarded) k) } :: discardEntries (k + 1) rest

/-- R186: every entry behind the head becomes DISCARDED. -/
def discardRest (b : RequestBlock) : RequestBlock :=
  match b.queue with
  | [] => b
  | e :: rest => { b with queue := e :: discardEntries b.built rest, built := b.built + rest.length }

/-- R186: the requests whose execution discards the entries behind: a SEG_RESET that is carried out. -/
def discardsRest (r : Request) (a : Answer) : Bool :=
  decide (requestName r.code = some .segReset) && decide (a.completion = .done)

/-- R177: the head is executed when it is WAITING. -/
def executeHead (s : State) : State :=
  match s.requests.queue with
  | [] => s
  | e :: _ =>
    match e.state with
    | .waiting =>
      let (t, a) := perform e.request s
      modRequests (fun b => if discardsRest e.request a then discardRest (answerHead a b) else answerHead a b) t
    | _ => s

/-- R176: a request joins the queue. -/
def joinQueue (r : Request) (s : State) : State :=
  modRequests (fun b => { b with queue := b.queue ++ [{ request := r, state := .waiting }] }) s

/-- R176: a request that finds 4 pending: a BUSY answer, or nothing when the holding area is full. -/
def answerBusy (r : Request) (s : State) : State :=
  modRequests (fun b =>
    if b.holding.length < Config.holdingCapacity then
      { b with holding := b.holding ++ [r.respond (refuse .busy) b.built], built := b.built + 1 }
    else b) s

/-- R176, R177: the arrival of a request at the SRQ: it joins, and is executed at once if the queue was empty. -/
def arrive (r : Request) (s : State) : State :=
  kick (if s.requests.queue.length < Config.requestCapacity then
    (if s.requests.queue = [] then executeHead (joinQueue r s) else joinQueue r s)
  else answerBusy r s)

/-- R174: the request a SERVICE frame of 10 bytes or more carries. -/
def requestOf (bs : Bytes) : Request :=
  { tag := bs.getD 1 0, code := bs.getD 2 0, target := bs.getD 3 0, length := BitVec.ofNat 16 (numAt16 bs 4)
    payload := (bs.drop 6).take (bs.length - 10) }

/-- R174: the SRQ discards a SERVICE frame of fewer than 10 bytes. -/
def takeServiceFrame (bs : Bytes) (s : State) : State := if bs.length < 10 then s else arrive (requestOf bs) s

/-- R139: the handling of a downstream frame, by what its bytes are. -/
def takeFrame (frame : Bytes) (s : State) : State :=
  let bs := received frame
  match classify bs with
  | .cycle => atExchangeStart (takeCycleFrame bs) s
  | .service => takeServiceFrame bs s
  | .discard => s

/-- R182: the last byte of a response has left: an entry leaves the queue and the next is executed; a BUSY answer leaves the
holding area. The gap of R140 follows. -/
def responseSent (s : State) : State :=
  match s.trunk.transmitter with
  | .sendingHead =>
    executeHead (modTrunk (fun t => { t with transmitter := .gap Config.upstreamGap })
      (modRequests (fun b => { b with queue := b.queue.tail }) s))
  | .sendingBusy =>
    modTrunk (fun t => { t with transmitter := .gap Config.upstreamGap })
      (modRequests (fun b => { b with holding := b.holding.tail }) s)
  | _ => s

end Sys2Proof.Machine
end

