-- ==== Sys2Proof/Machine/TrunkEvents.lean ====
section
/-! DEFINITION. The events of the Trunk Interface: its two timers (R146, R147) and the upstream transmitter (R140, R182, R192). -/

namespace Sys2Proof.Machine

/-- R146: the cycle-loss timer expires. -/
def lossExpired (s : State) : State := if s.trunk.lossTimer.isNone then s else cycleLost s

/-- R147: the local tick timer expires; it runs on. -/
def tickExpired (s : State) : State := if s.trunk.tickTimer.isNone then s else atExchangeStart localTick s

/-- R140: the gap after a frame is over: the arbiter starts a waiting frame. -/
def gapEnds (s : State) : State :=
  match s.trunk.transmitter with
  | .gap _ | .free => startFrame s
  | .sendingReturn _ | .sendingHead | .sendingBusy => s

/-- R140, R192: the last byte of a return frame leaves. -/
def returnSent (s : State) : State :=
  match s.trunk.transmitter with
  | .sendingReturn _ =>
    modEvents (fun b => { b with moderation := b.moderation - 1 })
      (modTrunk (fun t => { t with transmitter := .gap Config.upstreamGap }) s)
  | .free | .sendingHead | .sendingBusy | .gap _ => s

end Sys2Proof.Machine
end

