-- ==== Sys2Proof/Machine/ServiceCommands.lean ====
section
/-! DEFINITION. The meanings of the commands that are service requests: each arrives at the Service Request Queue with the code
of its row (R176, R177), is executed at once when the queue is empty, and is answered (R178 to R181). -/

namespace Sys2Proof.Machine

/-- A request with a code of the table. -/
def requestWith (code tag target : Byte) (length : BitVec 16) (payload : Bytes) : Request :=
  { tag := tag, code := code, target := target, length := length, payload := payload }

/-- A step that answers a next state. -/
def goesOn (s : State) : Host.Outcome State Fault Refusal := .next s

/-- SEG_IDENT (R184). -/
def execSegIdent (tag target : Byte) (length : BitVec 16) (payload : Bytes) (s : State) : Host.Outcome State Fault Refusal :=
  goesOn (arrive (requestWith codeSegIdent tag target length payload) s)

/-- SEG_CYCLE (R152, R154). -/
def execSegCycle (tag target : Byte) (length : BitVec 16) (payload : Bytes) (s : State) : Host.Outcome State Fault Refusal :=
  goesOn (arrive (requestWith codeSegCycle tag target length payload) s)

/-- SEG_BUDGET (R42, R44). -/
def execSegBudget (tag target : Byte) (length : BitVec 16) (payload : Bytes) (s : State) : Host.Outcome State Fault Refusal :=
  goesOn (arrive (requestWith codeSegBudget tag target length payload) s)

/-- SEG_ATTN (R192). -/
def execSegAttn (tag target : Byte) (length : BitVec 16) (payload : Bytes) (s : State) : Host.Outcome State Fault Refusal :=
  goesOn (arrive (requestWith codeSegAttn tag target length payload) s)

/-- SEG_RESET (R185, R186). -/
def execSegReset (tag target : Byte) (length : BitVec 16) (payload : Bytes) (s : State) : Host.Outcome State Fault Refusal :=
  goesOn (arrive (requestWith codeSegReset tag target length payload) s)

/-- EXP_LOAD (R95, R96). -/
def execExpLoad (tag target : Byte) (length : BitVec 16) (payload : Bytes) (s : State) : Host.Outcome State Fault Refusal :=
  goesOn (arrive (requestWith codeExpLoad tag target length payload) s)

/-- EXP_CLEAR (R97). -/
def execExpClear (tag target : Byte) (length : BitVec 16) (payload : Bytes) (s : State) : Host.Outcome State Fault Refusal :=
  goesOn (arrive (requestWith codeExpClear tag target length payload) s)

/-- EXP_READ (R98). -/
def execExpRead (tag target : Byte) (length : BitVec 16) (payload : Bytes) (s : State) : Host.Outcome State Fault Refusal :=
  goesOn (arrive (requestWith codeExpRead tag target length payload) s)

/-- PSET_OPEN (R121). -/
def execPsetOpen (tag target : Byte) (length : BitVec 16) (payload : Bytes) (s : State) : Host.Outcome State Fault Refusal :=
  goesOn (arrive (requestWith codePsetOpen tag target length payload) s)

/-- PSET_WRITE (R122). -/
def execPsetWrite (tag target : Byte) (length : BitVec 16) (payload : Bytes) (s : State) : Host.Outcome State Fault Refusal :=
  goesOn (arrive (requestWith codePsetWrite tag target length payload) s)

/-- PSET_CLOSE (R123, R113). -/
def execPsetClose (tag target : Byte) (length : BitVec 16) (payload : Bytes) (s : State) : Host.Outcome State Fault Refusal :=
  goesOn (arrive (requestWith codePsetClose tag target length payload) s)

/-- PSET_DROP (R124). -/
def execPsetDrop (tag target : Byte) (length : BitVec 16) (payload : Bytes) (s : State) : Host.Outcome State Fault Refusal :=
  goesOn (arrive (requestWith codePsetDrop tag target length payload) s)

/-- PSET_READ (R125). -/
def execPsetRead (tag target : Byte) (length : BitVec 16) (payload : Bytes) (s : State) : Host.Outcome State Fault Refusal :=
  goesOn (arrive (requestWith codePsetRead tag target length payload) s)

/-- PSET_LIST (R126). -/
def execPsetList (tag target : Byte) (length : BitVec 16) (payload : Bytes) (s : State) : Host.Outcome State Fault Refusal :=
  goesOn (arrive (requestWith codePsetList tag target length payload) s)

/-- SLOT_READ (R32). -/
def execSlotRead (tag target : Byte) (length : BitVec 16) (payload : Bytes) (s : State) : Host.Outcome State Fault Refusal :=
  goesOn (arrive (requestWith codeSlotRead tag target length payload) s)

/-- SLOT_HOLD (R18). -/
def execSlotHold (tag target : Byte) (length : BitVec 16) (payload : Bytes) (s : State) : Host.Outcome State Fault Refusal :=
  goesOn (arrive (requestWith codeSlotHold tag target length payload) s)

/-- SLOT_RELEASE (R19). -/
def execSlotRelease (tag target : Byte) (length : BitVec 16) (payload : Bytes) (s : State) : Host.Outcome State Fault Refusal :=
  goesOn (arrive (requestWith codeSlotRelease tag target length payload) s)

/-- SLOT_RESTART (R28). -/
def execSlotRestart (tag target : Byte) (length : BitVec 16) (payload : Bytes) (s : State) : Host.Outcome State Fault Refusal :=
  goesOn (arrive (requestWith codeSlotRestart tag target length payload) s)

/-- SLOT_WITHDRAW (R29). -/
def execSlotWithdraw (tag target : Byte) (length : BitVec 16) (payload : Bytes) (s : State) : Host.Outcome State Fault Refusal :=
  goesOn (arrive (requestWith codeSlotWithdraw tag target length payload) s)

/-- MAP_READ (R173). -/
def execMapRead (tag target : Byte) (length : BitVec 16) (payload : Bytes) (s : State) : Host.Outcome State Fault Refusal :=
  goesOn (arrive (requestWith codeMapRead tag target length payload) s)

/-- EVT_READ (R191). -/
def execEvtRead (tag target : Byte) (length : BitVec 16) (payload : Bytes) (s : State) : Host.Outcome State Fault Refusal :=
  goesOn (arrive (requestWith codeEvtRead tag target length payload) s)

/-- UNKNOWN_REQUEST (R178 step 1): a request with the code it carries. -/
def execUnknownRequest (tag code target : Byte) (length : BitVec 16) (payload : Bytes) (s : State) :
    Host.Outcome State Fault Refusal :=
  goesOn (arrive (requestWith code tag target length payload) s)

end Sys2Proof.Machine
end

