-- ==== Sys2Proof/Machine/LinkCommands.lean ====
section
/-! DEFINITION. The meanings of the commands at the slot links. The rows that are messages of the card carry its bytes, and what
they are is told by the bytes and by the message the engine last sent (R53). -/

namespace Sys2Proof.Machine

/-- TURNAROUND_EXPIRY (R52). -/
def execTurnaroundExpiry (slot : SlotIx) (s : State) : Host.Outcome State Fault Refusal :=
  goesOn (turnaroundEnds slot s)

/-- TRAIN_ECHO (R53, R57). -/
def execTrainEcho (slot : SlotIx) (message : Bytes) (s : State) : Host.Outcome State Fault Refusal :=
  goesOn (receive slot message s)

/-- ECHO_WAIT_EXPIRY (R57). -/
def execEchoWaitExpiry (slot : SlotIx) (s : State) : Host.Outcome State Fault Refusal :=
  goesOn (echoWaitExpired slot s)

/-- TRAINING_ATTEMPT_TIMEOUT (R57, R58, R60). -/
def execTrainingAttemptTimeout (slot : SlotIx) (s : State) : Host.Outcome State Fault Refusal :=
  goesOn (attemptFailed slot s)

/-- CONTROL_ANSWER (R53, R63). -/
def execControlAnswer (slot : SlotIx) (message : Bytes) (s : State) : Host.Outcome State Fault Refusal :=
  goesOn (receive slot message s)

/-- CONTROL_ANSWER_TIMEOUT (R62). -/
def execControlAnswerTimeout (slot : SlotIx) (s : State) : Host.Outcome State Fault Refusal :=
  goesOn (controlAnswerExpired slot s)

/-- BULK_ACK (R53, R66, R67). -/
def execBulkAck (slot : SlotIx) (message : Bytes) (s : State) : Host.Outcome State Fault Refusal :=
  goesOn (receive slot message s)

/-- BULK_WAIT (R53, R68). -/
def execBulkWait (slot : SlotIx) (message : Bytes) (s : State) : Host.Outcome State Fault Refusal :=
  goesOn (receive slot message s)

/-- BULK_REFUSE (R53, R69). -/
def execBulkRefuse (slot : SlotIx) (message : Bytes) (s : State) : Host.Outcome State Fault Refusal :=
  goesOn (receive slot message s)

/-- CORRUPT_BULK_ANSWER (R53, R67). -/
def execCorruptBulkAnswer (slot : SlotIx) (message : Bytes) (s : State) : Host.Outcome State Fault Refusal :=
  goesOn (receive slot message s)

/-- BULK_ANSWER_TIMEOUT (R67). -/
def execBulkAnswerTimeout (slot : SlotIx) (s : State) : Host.Outcome State Fault Refusal :=
  goesOn (bulkAnswerExpired slot s)

/-- BULK_BACKOFF_EXPIRY (R68). -/
def execBulkBackoffExpiry (slot : SlotIx) (s : State) : Host.Outcome State Fault Refusal :=
  goesOn (backoffExpired slot s)

/-- BULK_WAIT_TIMER_EXPIRY (R68). -/
def execBulkWaitTimerExpiry (slot : SlotIx) (s : State) : Host.Outcome State Fault Refusal :=
  goesOn (bulkWaitExpired slot s)

/-- CYCLIC_IN (R53, R71, R72). -/
def execCyclicIn (slot : SlotIx) (message : Bytes) (s : State) : Host.Outcome State Fault Refusal :=
  goesOn (receive slot message s)

/-- LINK_MESSAGE_DISCARD (R53). -/
def execLinkMessageDiscard (slot : SlotIx) (message : Bytes) (s : State) : Host.Outcome State Fault Refusal :=
  goesOn (receive slot message s)

/-- LINK_ALIVE_CHANGE (R56). -/
def execLinkAliveChange (slot : SlotIx) (present : Bool) (s : State) : Host.Outcome State Fault Refusal :=
  goesOn (modLink slot (aliveChanged present) s)

/-- LINK_DROP (R56). -/
def execLinkDrop (slot : SlotIx) (s : State) : Host.Outcome State Fault Refusal :=
  goesOn (absenceExpired slot s)

/-- SLOT_LINK_MESSAGE_END (R52, R57, R62, R65). -/
def execSlotLinkMessageEnd (slot : SlotIx) (s : State) : Host.Outcome State Fault Refusal :=
  goesOn (modLink slot LinkEngine.messageEnds s)

end Sys2Proof.Machine
end

