-- ==== Sys2Proof/Machine/PowerEvents.lean ====
section
/-! DEFINITION. What the Power Controller does on a change of a presence line (R34), on the outputs of a switch (R38, R40) and
when one of its timers expires (R33, R34, R38, R39). -/

namespace Sys2Proof.Machine

/-! ### The presence line (R34) -/

/-- R34: the line asserts; a line already asserted does not. -/
def lineAsserts (i : SlotIx) (s : State) : State :=
  if (s.slotPower i).line then s else examineLine i (modPower i SlotPower.asserted s)

/-- R34: the line drops; a line already dropped does not. -/
def lineDrops (i : SlotIx) (s : State) : State :=
  if (s.slotPower i).line then modPower i SlotPower.dropped s else s

/-- R34: the present timer expires: PRESENT, and *present* reported. -/
def presentExpired (i : SlotIx) (s : State) : State :=
  if (s.slotPower i).presentTimer.isNone then s
  else reportPresent i (modPower i (fun p => { p with debouncer := .present, presentTimer := none }) s)

/-- R34: the absent timer expires: ABSENT, and *absent* reported. -/
def absentExpired (i : SlotIx) (s : State) : State :=
  if (s.slotPower i).absentTimer.isNone then s
  else reportAbsent i (modPower i (fun p => { p with debouncer := .absent, absentTimer := none }) s)

/-! ### Inrush (R38, R39) -/

/-- R38: the standby inrush completes: its timers stop, the allowance becomes free, *inrush complete* is reported. -/
def inrushComplete (i : SlotIx) (s : State) : State :=
  besidePass true (reportInrushComplete i)
    (freeAllowance i
      (modPower i (fun p => { p with minimumTimer := none, deadlineTimer := none, goodSeen := false }) s))

/-- R38: the 20 ms minimum runs out. -/
def minimumExpired (i : SlotIx) (s : State) : State :=
  if (s.slotPower i).minimumTimer.isNone then s
  else if (s.slotPower i).goodSeen then inrushComplete i s
  else modPower i (fun p => { p with minimumTimer := none }) s

/-- R38: power-good, watched from switch-on until the standby inrush completes; R37: disregarded while the switch is OFF. -/
def powerGoodSeen (i : SlotIx) (s : State) : State :=
  if (s.slotPower i).switchOn = false ∨ (s.slotPower i).deadlineTimer.isNone then s
  else if (s.slotPower i).minimumTimer.isSome then modPower i (fun p => { p with goodSeen := true }) s
  else inrushComplete i s

/-- R22: POWER_GOOD_TIMEOUT at a context. -/
def reportPowerGoodTimeout (i : SlotIx) (s : State) : State :=
  if (s.ctx i).state = .standbyInrush then definitiveFault i .powerGoodTimeout 0 s else s

/-- R38: the deadline runs out: the switch OFF and POWER_GOOD_TIMEOUT. -/
def deadlineExpired (i : SlotIx) (s : State) : State :=
  if (s.slotPower i).deadlineTimer.isNone then s else besidePass true (reportPowerGoodTimeout i) (switchOff i s)

/-- R40: a trip: the switch OFF, then OVERCURRENT. A trip while the switch is OFF is disregarded. R5, R22, R45: a RUN entry of
the slot leaves the queue with the switch, so that the pass which the fall of committed power starts never grants it: a RUN
grant to a switch that is OFF would break R41 (log entry 2). -/
def tripped (i : SlotIx) (s : State) : State :=
  if (s.slotPower i).switchOn then besidePass true (reportTrip i) (leaveQueue i (switchOff i s)) else s

/-- R39: the run phase timer runs out: the allowance becomes free and *run phase ended* is reported. -/
def runPhaseExpired (i : SlotIx) (s : State) : State :=
  if (s.slotPower i).runPhaseTimer.isNone then s
  else besidePass true (runPhaseEnded i) (freeAllowance i (modPower i (fun p => { p with runPhaseTimer := none }) s))

end Sys2Proof.Machine
end

