-- ==== Sys2Proof/Machine/PowerCommands.lean ====
section
/-! DEFINITION. The meanings of the commands at the Power Controller: presence lines, power switches and inrush timers. -/

namespace Sys2Proof.Machine

/-- PRESENCE_LINE_ASSERT (R34). -/
def execPresenceLineAssert (slot : SlotIx) (s : State) : Host.Outcome State Fault Refusal := goesOn (lineAsserts slot s)

/-- PRESENCE_LINE_DROP (R34). -/
def execPresenceLineDrop (slot : SlotIx) (s : State) : Host.Outcome State Fault Refusal := goesOn (lineDrops slot s)

/-- PRESENT_TIMER_EXPIRY (R34, R6). -/
def execPresentTimerExpiry (slot : SlotIx) (s : State) : Host.Outcome State Fault Refusal := goesOn (presentExpired slot s)

/-- ABSENT_TIMER_EXPIRY (R34, R27). -/
def execAbsentTimerExpiry (slot : SlotIx) (s : State) : Host.Outcome State Fault Refusal := goesOn (absentExpired slot s)

/-- INRUSH_MINIMUM_EXPIRY (R38). -/
def execInrushMinimumExpiry (slot : SlotIx) (s : State) : Host.Outcome State Fault Refusal := goesOn (minimumExpired slot s)

/-- POWER_GOOD (R38, R37). -/
def execPowerGood (slot : SlotIx) (s : State) : Host.Outcome State Fault Refusal := goesOn (powerGoodSeen slot s)

/-- POWER_GOOD_TIMEOUT (R38, R22). -/
def execPowerGoodTimeout (slot : SlotIx) (s : State) : Host.Outcome State Fault Refusal := goesOn (deadlineExpired slot s)

/-- TRIP (R40, R22). -/
def execTrip (slot : SlotIx) (s : State) : Host.Outcome State Fault Refusal := goesOn (tripped slot s)

/-- RUN_PHASE_TIMER_EXPIRY (R39, R12). -/
def execRunPhaseTimerExpiry (slot : SlotIx) (s : State) : Host.Outcome State Fault Refusal := goesOn (runPhaseExpired slot s)

end Sys2Proof.Machine
end

