-- ==== Sys2Proof/Machine/TrunkCommands.lean ====
section
/-! DEFINITION. The meanings of the commands at the trunk: the three rows of downstream frames, which the frame's own bytes tell
apart (R139), the two timers of the Trunk Interface, the upstream transmitter, and power-on. -/

namespace Sys2Proof.Machine

/-- POWER_ON (R2, R33). -/
def execPowerOn (s : State) : Host.Outcome State Fault Refusal := goesOn (powerOn s)

/-- SERVICE_REQUEST_ARRIVAL (R139, R174, R176). -/
def execServiceRequestArrival (frame : Bytes) (s : State) : Host.Outcome State Fault Refusal := goesOn (takeFrame frame s)

/-- CYCLE_FRAME (R139, R142 to R144). -/
def execCycleFrame (frame : Bytes) (s : State) : Host.Outcome State Fault Refusal := goesOn (takeFrame frame s)

/-- DOWNSTREAM_FRAME_DISCARD (R139, R174). -/
def execDownstreamFrameDiscard (frame : Bytes) (s : State) : Host.Outcome State Fault Refusal := goesOn (takeFrame frame s)

/-- CYCLE_LOSS_TIMER_EXPIRY (R146). -/
def execCycleLossTimerExpiry (s : State) : Host.Outcome State Fault Refusal := goesOn (lossExpired s)

/-- LOCAL_TICK (R147, R165, R168). -/
def execLocalTick (s : State) : Host.Outcome State Fault Refusal := goesOn (tickExpired s)

/-- TRANSMITTER_FREE (R140, R182). -/
def execTransmitterFree (s : State) : Host.Outcome State Fault Refusal := goesOn (gapEnds s)

/-- RETURN_FRAME_SENT (R140, R192). -/
def execReturnFrameSent (s : State) : Host.Outcome State Fault Refusal := goesOn (returnSent s)

/-- SERVICE_RESPONSE_SENT (R182, R177). -/
def execServiceResponseSent (s : State) : Host.Outcome State Fault Refusal := goesOn (responseSent s)

end Sys2Proof.Machine
end

