-- ==== Sys2Proof/Machine/Dispatch.lean ====
section
/-! DEFINITION. One arm per command: its meaning. -/

namespace Sys2Proof.Machine

def exec (i : Instr) (s : State) : Host.Outcome State Fault Refusal :=
  match i with
  | .powerOn => Sys2Proof.Machine.execPowerOn s
  | .segIdent tag target length payload => Sys2Proof.Machine.execSegIdent tag target length payload s
  | .segCycle tag target length payload => Sys2Proof.Machine.execSegCycle tag target length payload s
  | .segBudget tag target length payload => Sys2Proof.Machine.execSegBudget tag target length payload s
  | .segAttn tag target length payload => Sys2Proof.Machine.execSegAttn tag target length payload s
  | .segReset tag target length payload => Sys2Proof.Machine.execSegReset tag target length payload s
  | .expLoad tag target length payload => Sys2Proof.Machine.execExpLoad tag target length payload s
  | .expClear tag target length payload => Sys2Proof.Machine.execExpClear tag target length payload s
  | .expRead tag target length payload => Sys2Proof.Machine.execExpRead tag target length payload s
  | .psetOpen tag target length payload => Sys2Proof.Machine.execPsetOpen tag target length payload s
  | .psetWrite tag target length payload => Sys2Proof.Machine.execPsetWrite tag target length payload s
  | .psetClose tag target length payload => Sys2Proof.Machine.execPsetClose tag target length payload s
  | .psetDrop tag target length payload => Sys2Proof.Machine.execPsetDrop tag target length payload s
  | .psetRead tag target length payload => Sys2Proof.Machine.execPsetRead tag target length payload s
  | .psetList tag target length payload => Sys2Proof.Machine.execPsetList tag target length payload s
  | .slotRead tag target length payload => Sys2Proof.Machine.execSlotRead tag target length payload s
  | .slotHold tag target length payload => Sys2Proof.Machine.execSlotHold tag target length payload s
  | .slotRelease tag target length payload => Sys2Proof.Machine.execSlotRelease tag target length payload s
  | .slotRestart tag target length payload => Sys2Proof.Machine.execSlotRestart tag target length payload s
  | .slotWithdraw tag target length payload => Sys2Proof.Machine.execSlotWithdraw tag target length payload s
  | .mapRead tag target length payload => Sys2Proof.Machine.execMapRead tag target length payload s
  | .evtRead tag target length payload => Sys2Proof.Machine.execEvtRead tag target length payload s
  | .unknownRequest tag code target length payload => Sys2Proof.Machine.execUnknownRequest tag code target length payload s
  | .serviceRequestArrival frame => Sys2Proof.Machine.execServiceRequestArrival frame s
  | .cycleFrame frame => Sys2Proof.Machine.execCycleFrame frame s
  | .downstreamFrameDiscard frame => Sys2Proof.Machine.execDownstreamFrameDiscard frame s
  | .cycleLossTimerExpiry => Sys2Proof.Machine.execCycleLossTimerExpiry s
  | .localTick => Sys2Proof.Machine.execLocalTick s
  | .transmitterFree => Sys2Proof.Machine.execTransmitterFree s
  | .returnFrameSent => Sys2Proof.Machine.execReturnFrameSent s
  | .serviceResponseSent => Sys2Proof.Machine.execServiceResponseSent s
  | .presenceLineAssert slot => Sys2Proof.Machine.execPresenceLineAssert slot s
  | .presenceLineDrop slot => Sys2Proof.Machine.execPresenceLineDrop slot s
  | .presentTimerExpiry slot => Sys2Proof.Machine.execPresentTimerExpiry slot s
  | .absentTimerExpiry slot => Sys2Proof.Machine.execAbsentTimerExpiry slot s
  | .inrushMinimumExpiry slot => Sys2Proof.Machine.execInrushMinimumExpiry slot s
  | .powerGood slot => Sys2Proof.Machine.execPowerGood slot s
  | .powerGoodTimeout slot => Sys2Proof.Machine.execPowerGoodTimeout slot s
  | .trip slot => Sys2Proof.Machine.execTrip slot s
  | .runPhaseTimerExpiry slot => Sys2Proof.Machine.execRunPhaseTimerExpiry slot s
  | .turnaroundExpiry slot => Sys2Proof.Machine.execTurnaroundExpiry slot s
  | .trainEcho slot message => Sys2Proof.Machine.execTrainEcho slot message s
  | .echoWaitExpiry slot => Sys2Proof.Machine.execEchoWaitExpiry slot s
  | .trainingAttemptTimeout slot => Sys2Proof.Machine.execTrainingAttemptTimeout slot s
  | .controlAnswer slot message => Sys2Proof.Machine.execControlAnswer slot message s
  | .controlAnswerTimeout slot => Sys2Proof.Machine.execControlAnswerTimeout slot s
  | .bulkAck slot message => Sys2Proof.Machine.execBulkAck slot message s
  | .bulkWait slot message => Sys2Proof.Machine.execBulkWait slot message s
  | .bulkRefuse slot message => Sys2Proof.Machine.execBulkRefuse slot message s
  | .corruptBulkAnswer slot message => Sys2Proof.Machine.execCorruptBulkAnswer slot message s
  | .bulkAnswerTimeout slot => Sys2Proof.Machine.execBulkAnswerTimeout slot s
  | .bulkBackoffExpiry slot => Sys2Proof.Machine.execBulkBackoffExpiry slot s
  | .bulkWaitTimerExpiry slot => Sys2Proof.Machine.execBulkWaitTimerExpiry slot s
  | .cyclicIn slot message => Sys2Proof.Machine.execCyclicIn slot message s
  | .linkMessageDiscard slot message => Sys2Proof.Machine.execLinkMessageDiscard slot message s
  | .linkAliveChange slot present => Sys2Proof.Machine.execLinkAliveChange slot present s
  | .linkDrop slot => Sys2Proof.Machine.execLinkDrop slot s
  | .slotLinkMessageEnd slot => Sys2Proof.Machine.execSlotLinkMessageEnd slot s

end Sys2Proof.Machine
end

