-- ==== Sys2Proof/Safety.lean ====
section
/-! DEFINITION. The terms the claims are stated in: what a request's answer leaves at the queue and the transmitter, what
switch-off with releases leaves of a slot, the lengths and targets the requests accept, and the invariants that hold of the
device in every state that events can lead to. -/

namespace Sys2Proof.Machine

/-! ### A request's answer -/

/-- No request is pending, and no BUSY answer waits while the transmitter is free (R140, R175). -/
def State.quiet (s : State) : Prop :=
  s.requests.queue = [] ∧ (s.trunk.transmitter = .free → s.requests.holding = [])

/-- R140, R182: the trunk after the response to the only request pending has been built: a free transmitter starts a frame, a
waiting return frame before the response; any other goes on with what it does. -/
def Trunk.offered (t : Trunk) : Trunk :=
  if t.transmitter = .free then
    { t with transmitter := (match t.waiting with
               | some f => .sendingReturn f
               | none => .sendingHead)
             waiting := none }
  else t

/-- R177, R180, R182: `s` with the answer to a request that arrived at a quiet queue: the request is the head entry, ANSWERED,
and its response carries its tag, code and target. -/
def State.answered (s : State) (r : Request) (a : Answer) : State :=
  { s with
    requests :=
      { s.requests with
        queue := [{ request := r
                    state := .answered { tag := r.tag, code := r.code, target := r.target, answer := a
                                         built := s.requests.built } }]
        built := s.requests.built + 1 }
    trunk := s.trunk.offered }

/-- The request that a row's command carries. -/
def requestFor (name : RequestName) (tag target : Byte) (payload : Bytes) : Request :=
  { tag := tag, code := name.code, target := target, length := BitVec.ofNat 16 payload.length, payload := payload }

/-- R174, R199: the frame of a service request. -/
def Request.frame (r : Request) : Bytes :=
  withCrc32 ([2, r.tag, r.code, r.target] ++ enc16 r.length.toNat ++ r.payload)

/-- The row of the table that carries a request. -/
def RequestName.command (name : RequestName) (tag target : Byte) (length : BitVec 16) (payload : Bytes) : Instr :=
  match name with
  | .segIdent => .segIdent tag target length payload
  | .segCycle => .segCycle tag target length payload
  | .segBudget => .segBudget tag target length payload
  | .segAttn => .segAttn tag target length payload
  | .segReset => .segReset tag target length payload
  | .expLoad => .expLoad tag target length payload
  | .expClear => .expClear tag target length payload
  | .expRead => .expRead tag target length payload
  | .psetOpen => .psetOpen tag target length payload
  | .psetWrite => .psetWrite tag target length payload
  | .psetClose => .psetClose tag target length payload
  | .psetDrop => .psetDrop tag target length payload
  | .psetRead => .psetRead tag target length payload
  | .psetList => .psetList tag target length payload
  | .slotRead => .slotRead tag target length payload
  | .slotHold => .slotHold tag target length payload
  | .slotRelease => .slotRelease tag target length payload
  | .slotRestart => .slotRestart tag target length payload
  | .slotWithdraw => .slotWithdraw tag target length payload
  | .mapRead => .mapRead tag target length payload
  | .evtRead => .evtRead tag target length payload

/-- The row of the table that carries a request as received, UNKNOWN_REQUEST for a code that names none. -/
def Request.command (r : Request) : Instr :=
  match requestName r.code with
  | some name => name.command r.tag r.target r.length r.payload
  | none => .unknownRequest r.tag r.code r.target r.length r.payload

/-- The target byte of a slot. -/
def slotByte (i : SlotIx) : Byte := BitVec.ofNat 8 i.val

/-- The target byte of a parameter set. -/
def setByte (n : SetIx) : Byte := BitVec.ofNat 8 n.val

/-- What a request's target may name (R179). -/
inductive TargetKind where
  | segment | slot | set
deriving DecidableEq, Repr

/-- R179: the target column of the table of requests. -/
def RequestName.targetKind : RequestName → TargetKind
  | .segIdent | .segCycle | .segBudget | .segAttn | .segReset | .psetList | .mapRead | .evtRead => .segment
  | .expLoad | .expClear | .expRead | .slotRead | .slotHold | .slotRelease | .slotRestart | .slotWithdraw => .slot
  | .psetOpen | .psetWrite | .psetClose | .psetDrop | .psetRead => .set

/-- R179: whether a target byte names what a kind asks for: SEGMENT is 255, slots are 0 to 11, sets 0 to 63. -/
def TargetKind.accepts (k : TargetKind) (target : Byte) : Prop :=
  match k with
  | .segment => target.toNat = 255
  | .slot => target.toNat < 12
  | .set => target.toNat < 64

/-- R179: the payload length column of the table of requests, for the requests of one length or a range. EXP_LOAD accepts 27
bytes, 8 for each substitute and 6 for each sub-module as its payload counts them. -/
def RequestName.acceptsLength (name : RequestName) (payload : Bytes) : Prop :=
  match name with
  | .segIdent | .segReset | .expClear | .expRead | .psetClose | .psetDrop | .psetList | .slotRead | .slotHold
  | .slotRelease | .slotRestart | .slotWithdraw | .mapRead => payload.length = 0
  | .segCycle => payload.length = 8
  | .segBudget | .segAttn | .psetOpen => payload.length = 2
  | .expLoad => payload.length = 27 + 8 * byteAt payload 9 + 6 * byteAt payload (14 + 8 * byteAt payload 9)
  | .psetWrite => 1 ≤ payload.length ∧ payload.length ≤ 512
  | .psetRead => payload.length = 4
  | .evtRead => payload.length = 1

/-! ### The cycle configuration -/

/-- R152 step 3: the four values are in range. -/
def CycleInRange (period outLength inLength reserve : Nat) : Prop :=
  (period = 0 ∨ (125 ≤ period ∧ period ≤ 16000)) ∧ outLength ≤ 1440 ∧ inLength ≤ 1440 ∧ 64 ≤ reserve ∧ reserve ≤ 1024

/-- R152 step 6: the ARMED or LIVE windows of a slot lie within images of these lengths. -/
def SlotMap.within (m : SlotMap) (outLength inLength : Nat) : Prop :=
  (∀ w, m.output.claimed = some w → w.offset + w.length ≤ outLength)
    ∧ (∀ w, m.input.claimed = some w → w.offset + w.length ≤ inLength)

/-- R152 step 7: a RUNNING or ADMIT_PENDING context fits a period, in µs, with this output image length. -/
def Context.suits (c : Context) (period outLength : Nat) : Prop :=
  c.state = .running ∨ c.state = .admitPending → c.need outLength ≤ period * 1000

/-- R154: the trunk after an accepted SEG_CYCLE. -/
def Trunk.configured (t : Trunk) (period outLength inLength reserve : Nat) : Trunk :=
  { t with
    period := period, outLength := outLength, inLength := inLength, reserve := reserve
    lossTimer := if t.mode = .synchronized then (if period = 0 then none else some (3 * period * 1000)) else t.lossTimer
    tickTimer := if t.mode = .synchronized then t.tickTimer else (if period = 0 then none else some (period * 1000)) }

/-! ### Cycle frames -/

/-- R199: the bytes of a cycle frame with the flags byte, cycle number and image given. -/
def cycleFrameBytes (flags : Byte) (number : Nat) (image : Bytes) : Bytes :=
  withCrc32 ([1, flags] ++ enc32 number ++ enc16 image.length ++ [0, 0] ++ image)

/-- R142: a received frame is a bad cycle frame. -/
def IsBadCycleFrame (bs : Bytes) (outLength : Nat) : Prop :=
  4 ≤ bs.length ∧ byteAt bs 0 = 1
    ∧ (crc32 (bs.take (bs.length - 4)) ≠ numAt32 bs (bs.length - 4) ∨ numAt16 bs 6 ≠ outLength
        ∨ bs.length ≠ 14 + numAt16 bs 6)

/-! ### Matching -/

/-- R107: a context after a matching against an enabled record or none; `onRelease` is the record's admit mode (R9). -/
def Context.matched (c : Context) (onRelease : Bool) : MatchOutcome → Context
  | .parked reason result _ _ _ => { c with state := .parked, reason := some reason, result := some result, layout := none }
  | .forward result layout _ _ =>
    { c with state := .rateTraining, reason := none, result := some result, layout := some layout, pinned := layout.set
             hold := c.hold || onRelease }

/-- R112: the MATCH_DONE of a matching. -/
def MatchOutcome.event : MatchOutcome → EventBody
  | .parked _ result position outcome count => .matchDone result.cls result.sub result.substitute position outcome none count
  | .forward result layout rate count =>
    .matchDone result.cls none result.substitute none
      (match layout.set with
       | some n => .pinned n
       | none => .none) (some rate) count

/-! ### Expectation records -/

/-- R95: an identity whose numbers fit their fields and whose revision range is in order. -/
def CardSpec.InRange (x : CardSpec) : Prop :=
  x.vendor < 65536 ∧ x.cardType < 65536 ∧ x.minRev.major < 256 ∧ x.minRev.minor < 256 ∧ x.maxRev.major < 256
    ∧ x.maxRev.minor < 256
    ∧ (x.minRev.major < x.maxRev.major ∨ (x.minRev.major = x.maxRev.major ∧ x.minRev.minor ≤ x.maxRev.minor))

/-- R91, R95: every field of a record is in the range its index gives, and its sub-modules stand in ascending order of position. -/
structure ExpRecord.InRange (r : ExpRecord) : Prop where
  primary : r.primary.InRange
  substitutes : r.substitutes.length ≤ 4 ∧ ∀ x ∈ r.substitutes, x.InRange
  bases : r.baseOut ≤ 256 ∧ r.baseIn ≤ 256
  subs : r.subs.length ≤ 8
  positions : (r.subs.map ExpSub.position).Pairwise (· < ·)
  entries : ∀ e ∈ r.subs, e.position ≤ 7 ∧ e.type < 65536 ∧ e.outBytes ≤ 64 ∧ e.inBytes ≤ 64
  lengths : r.baseOut + (r.subs.map ExpSub.outBytes).sum ≤ 256 ∧ r.baseIn + (r.subs.map ExpSub.inBytes).sum ≤ 256
  offsets : r.outOffset + (r.baseOut + (r.subs.map ExpSub.outBytes).sum) ≤ 1440
    ∧ r.inOffset + (r.baseIn + (r.subs.map ExpSub.inBytes).sum) ≤ 1440
  draw : r.drawCap ≤ 4000

/-- R95 step 3, R202: in an EXP_LOAD payload, where its two counts place the fields, the field of an index, 0 to 14, is out of
range. -/
def LoadBad (p : Bytes) (index : Nat) : Prop :=
  let substitutes := byteAt p 9
  let base := 10 + 8 * substitutes
  let subs := byteAt p (base + 4)
  let entry := fun j => base + 5 + 6 * j
  let tail := base + 5 + 6 * subs
  let outLength := numAt16 p base + ((List.range subs).map fun j => byteAt p (entry j + 3)).sum
  let inLength := numAt16 p (base + 2) + ((List.range subs).map fun j => byteAt p (entry j + 4)).sum
  let reversed := fun o => byteAt p (o + 6) < byteAt p (o + 4)
    ∨ (byteAt p (o + 6) = byteAt p (o + 4) ∧ byteAt p (o + 7) < byteAt p (o + 5))
  match index with
  | 0 => 1 < byteAt p 0
  | 1 => reversed 1
  | 2 => 4 < substitutes ∨ ∃ j, j < substitutes ∧ reversed (10 + 8 * j)
  | 3 => 256 < numAt16 p base
  | 4 => 256 < numAt16 p (base + 2)
  | 5 => 8 < subs
      ∨ (∃ j, j < subs ∧ (7 < byteAt p (entry j) ∨ 64 < byteAt p (entry j + 3) ∨ 64 < byteAt p (entry j + 4)
          ∨ 1 < byteAt p (entry j + 5)))
      ∨ (∃ k, k < subs ∧ ∃ j, j < k ∧ byteAt p (entry j) = byteAt p (entry k))
      ∨ 256 < outLength ∨ 256 < inLength
  | 6 => 63 < byteAt p tail ∧ byteAt p tail ≠ 255
  | 7 => 1440 < numAt16 p (tail + 1) + outLength
  | 8 => 1440 < numAt16 p (tail + 3) + inLength
  | 9 => 3 < byteAt p (tail + 5)
  | 10 => 4000 < numAt16 p (tail + 6)
  | 11 => 1 < byteAt p (tail + 8)
  | 12 => 1 < byteAt p (tail + 9)
  | 13 => 1 < byteAt p (tail + 10)
  | 14 => 1 < byteAt p (tail + 11)
  | _ => False

/-! ### The descriptor walk -/

/-- R88, R89: the identity record of the gathered fields: every field as declared, the sub-modules in ascending order of position,
each with its card-image offsets behind those before it, and the totals. -/
structure Identity.Gathers (c : Identity) (ident : IdentBody) (supply : Nat × Nat) (link : RateCode × Nat) (layout : LayoutBody)
    (param : Option ParamDecl) : Prop where
  ident : c.vendor = ident.vendor ∧ c.cardType = ident.cardType ∧ c.revision = ident.revision ∧ c.serial = ident.serial
  supply : c.standbyDraw = supply.1 ∧ c.runDraw = supply.2
  link : c.maxRate = link.1 ∧ c.maxBulk = link.2
  bases : c.baseOut = layout.baseOut ∧ c.baseIn = layout.baseIn
  entries : (c.subs.map fun m => ({ position := m.position, type := m.type, outBytes := m.outBytes, inBytes := m.inBytes } :
    LayoutEntry)).Perm layout.entries
  order : (c.subs.map SubModule.position).Pairwise (· ≤ ·)
  offsets : ∀ pre m rest, c.subs = pre ++ m :: rest →
    m.outOffset = layout.baseOut + (pre.map SubModule.outBytes).sum ∧ m.inOffset = layout.baseIn + (pre.map SubModule.inBytes).sum
  totals : c.co = layout.baseOut + (layout.entries.map LayoutEntry.outBytes).sum
    ∧ c.ci = layout.baseIn + (layout.entries.map LayoutEntry.inBytes).sum
  param : c.param = param

/-- R85, R87, R88: what the walk does past a block, with the fields gathered so far: the next header, or at the end of the chain the
first mandatory kind missing, or the identity record. -/
def Walk.GoesOn (w : Walk) (fields : Gathered) (next : Nat) (result : WalkStep) : Prop :=
  let incomplete := fun (kind : Nat) => result = .failed { kind := .chainIncomplete, detail := kind }
  (next ≠ 0 → result = .read
    { w with fields := fields, offset := next, number := w.number + 1, stage := .header, header := none } next 4)
  ∧ (next = 0 →
    (fields.supply = none → incomplete 2)
    ∧ (fields.supply ≠ none → fields.link = none → incomplete 3)
    ∧ (fields.supply ≠ none → fields.link ≠ none → fields.layout = none → incomplete 4)
    ∧ ∀ ident supply link layout, fields.ident = some ident → fields.supply = some supply → fields.link = some link →
        fields.layout = some layout →
        ∃ card : Identity, result = .complete card ∧ card.Gathers ident supply link layout fields.param)

/-! ### What a slot gives up (R5) -/

/-- R37: a switch turned OFF: its inrush timers stop. -/
def SlotPower.off (p : SlotPower) : SlotPower :=
  { p with switchOn := false, minimumTimer := none, deadlineTimer := none, goodSeen := false, runPhaseTimer := none }

/-- R54: a link taken DOWN; the link-alive line is the card's. -/
def LinkEngine.gone (l : LinkEngine) : LinkEngine :=
  { link := .down, lost := false, training := none, failures := 0, echoes := 0, seq := 0, watch := false, pipe := .idle,
    requestNumber := 0, bulk := none, exchange := none, lastOutputs := none, input := .fresh, attemptTimer := none,
    echoTimer := none, answerTimer := none, turnaround := none, sending := none, receiving := false, next := none, alive := l.alive,
    absenceTimer := none, absenceReported := l.absenceReported }

/-- R5: a context after switch-off with releases; its state and reason are what the rule that applies it says. -/
def Context.released (c : Context) : Context :=
  { c with heldDraw := 0, pinned := none, progress := none, walk := none, download := none }

/-- R5: the windows of a slot after switch-off with releases: ARMED ones VACANT, a LIVE window not touched. -/
def SlotMap.released (m : SlotMap) : SlotMap :=
  match m.output, m.input with
  | .armed _, .armed _ => { m with output := .vacant, input := .vacant, tables := none, latest := none }
  | _, _ => m

/-- The two windows of a slot change together (R164), and the copies of its tables and inputs go with them. -/
def SlotMap.paired (m : SlotMap) : Prop :=
  match m.output, m.input with
  | .vacant, .vacant => m.tables = none ∧ m.latest = none
  | .armed _, .armed _ | .live _, .live _ | .retiring _, .retiring _ => True
  | _, _ => False

/-! ### Frames -/

/-- A set record without its pin count, which alone an event may change. -/
def SetRecord.unpinned (r : SetRecord) : SetRecord := { r with pins := 0 }

/-- What no event of the device touches, whatever it does: the waiting commands, the requests, the expectation records, the
budget, the cycle configuration, the attention settings and the contents of the parameter sets. Events are only appended. -/
structure Evolves (s t : State) : Prop where
  pending : t.pending = s.pending
  requests : t.requests = s.requests
  expected : ∀ i, t.expected i = s.expected i
  budget : t.power.budget = s.power.budget
  period : t.trunk.period = s.trunk.period
  outLength : t.trunk.outLength = s.trunk.outLength
  inLength : t.trunk.inLength = s.trunk.inLength
  reserve : t.trunk.reserve = s.trunk.reserve
  interval : t.events.interval = s.events.interval
  moderation : t.events.moderation = s.events.moderation
  memory : t.store.memory = s.store.memory
  pool : t.store.pool = s.store.pool
  sets : ∀ n, (t.store.set n).unpinned = (s.store.set n).unpinned
  events : s.events.events <+: t.events.events
  capacity : s.events.events.length ≤ 32 → t.events.events.length ≤ 32
  lost : s.events.lost = true → t.events.lost = true

/-- What an event at slot `i` leaves of everything else: beside `Evolves`, the trunk, the retained image, and every other slot but
those whose entry waits in the power-up queue (a pass may grant it, R47) and those that wait in READY without hold (a window given
up may start their check, R160). -/
structure Kept (i : SlotIx) (s t : State) : Prop where
  evolves : Evolves s t
  trunk : t.trunk = s.trunk
  retained : t.retained = s.retained
  others : ∀ j, j ≠ i → t.slot j = s.slot j ∨ (∃ e ∈ s.power.queue, e.slot = j)
    ∨ ((s.ctx j).state = .ready ∧ (s.ctx j).hold = false)

/-- R188, R190: an event posted between `s` and `t`, dated with the cycle number `s` holds: it is among the records appended, or
records have been lost. -/
def Posted (slot : Option SlotIx) (body : EventBody) (s t : State) : Prop :=
  { slot := slot, cycle := s.trunk.lastCycle, body := body } ∈ t.events.events.drop s.events.events.length
    ∨ t.events.lost = true

/-- R127: the pin of a set, if any, is released and every other pin count stands. -/
def Unpinned (pinned : Option SetIx) (s t : State) : Prop :=
  ∀ n, (t.store.set n).pins = if pinned = some n then (s.store.set n).pins - 1 else (s.store.set n).pins

/-- R5: slot `i` has given up what it held, and its context is now `c`: its switch is OFF and its inrush timers stopped, its link is
DOWN, its ARMED windows are VACANT, its pin is released and it has no queue entry. -/
structure GivesUp (i : SlotIx) (c : Context) (s t : State) : Prop where
  slot : t.slot i = { s.slot i with ctx := c, power := (s.slotPower i).off, link := (s.link i).gone, map := (s.map i).released }
  entry : ∀ e ∈ t.power.queue, e.slot ≠ i
  pins : Unpinned (s.ctx i).pinned s t
  kept : Kept i s t

/-- R20: slot `i` has been taken back to LINK_TRAINING with `attempts` attempts: what the bring-up had learned is gone, at most
150 mA are held, its ARMED windows are VACANT, its pin is released, it has no queue entry, and a base training begins. -/
structure Retrains (i : SlotIx) (attempts : Nat) (s t : State) : Prop where
  ctx : t.ctx i = { s.ctx i with
    state := .linkTraining, reason := none, attempts := attempts, identity := none, result := none, layout := none
    rateCode := 0, heldDraw := min (s.ctx i).heldDraw 150, pinned := none, progress := none, walk := none, download := none }
  power : t.slotPower i = { s.slotPower i with runPhaseTimer := none }
  map : t.map i = (s.map i).released
  link : (t.link i).link = .training ∧ (t.link i).training = some (.base, 0) ∧ (t.link i).lost = false
    ∧ (t.link i).failures = 0 ∧ (t.link i).echoes = 0 ∧ (t.link i).watch = false ∧ (t.link i).pipe = .idle
    ∧ (t.link i).requestNumber = 0 ∧ (t.link i).bulk = none ∧ (t.link i).exchange = none
    ∧ (t.link i).alive = (s.link i).alive
  train : ((t.link i).sending = some (.train .base 0 1) ∧ (t.link i).seq = 1) ∨ (t.link i).next = some .train
  entry : ∀ e ∈ t.power.queue, e.slot ≠ i
  pins : Unpinned (s.ctx i).pinned s t
  kept : Kept i s t

/-- R21: the context of a slot that has taken a fault: FAULTED with the fault record, the rest as switch-off with releases leaves
it. -/
def Context.faulted (c : Context) (f : FaultRecord) : Context :=
  { c.released with state := .faulted, reason := none, fault := some f }

/-- R29, R30: the context of a slot that has been withdrawn. -/
def Context.withdrawn (c : Context) (reason : Reason) : Context :=
  { c.released with state := .withdrawn, reason := some reason }

/-- R27: the context of a slot that has entered EMPTY: all cleared but the hold flag. -/
def Context.emptied (c : Context) : Context := { Context.reset with hold := c.hold }

/-- R21: slot `i` has taken a definitive fault. -/
def Faults (i : SlotIx) (kind : FaultKind) (detail : Nat) (s t : State) : Prop :=
  GivesUp i ((s.ctx i).faulted
    { kind := kind, stateAt := (s.ctx i).state, detail := detail, attempts := (s.ctx i).attempts }) s t
  ∧ Posted (some i) (.milestone .faulted none none (some (kind, detail))) s t

/-- R20: slot `i` has taken a transient fault: with fewer than 3 attempts it trains again, at the third it is FAULTED with
ATTEMPTS_EXHAUSTED. -/
def TransientlyFaults (i : SlotIx) (kind : FaultKind) (s t : State) : Prop :=
  if (s.ctx i).attempts < 2 then Retrains i ((s.ctx i).attempts + 1) s t
  else GivesUp i ({ s.ctx i with attempts := 3 }.faulted
      { kind := .attemptsExhausted, stateAt := (s.ctx i).state, detail := kind.code, attempts := 3 }) s t
    ∧ Posted (some i) (.milestone .faulted none none (some (.attemptsExhausted, kind.code))) s t

/-- R29, R30: slot `i` has been withdrawn. -/
def Withdraws (i : SlotIx) (reason : Reason) (s t : State) : Prop :=
  GivesUp i ((s.ctx i).withdrawn reason) s t ∧ Posted (some i) (.milestone .withdrawn (some reason) none none) s t

/-! ### What a slot link sends -/

/-- R52, R62: a control request is asked of the engine: sent at once with the next number on a quiet pair, and otherwise when the
turnaround has ended. -/
def LinkEngine.asks (r : ControlReq) (l : LinkEngine) : LinkEngine :=
  if l.turnaround.isSome ∨ l.sending.isSome ∨ l.receiving then { l with next := some (.request r) }
  else { l with requestNumber := (l.requestNumber + 1) % 256, pipe := .waiting r ((l.requestNumber + 1) % 256) false
                sending := some (.request ((l.requestNumber + 1) % 256) r) }

/-- R52, R57: the next TRAIN of a training is asked of the engine; the first of an attempt starts its 5 ms. -/
def LinkEngine.trains (kind : TrainKind) (target : RateCode) (l : LinkEngine) : LinkEngine :=
  if l.turnaround.isSome ∨ l.sending.isSome ∨ l.receiving then { l with next := some .train }
  else { l with seq := (l.seq + 1) % 256, sending := some (.train kind target ((l.seq + 1) % 256))
                attemptTimer := some (l.attemptTimer.getD 5000000) }

/-- R52, R54, R70, R71: an engine that starts a cyclic exchange: the CYCLIC_OUT leaves at once on a quiet pair, its bytes the last
outputs, and otherwise when the turnaround has ended. -/
def LinkEngine.exchanges (flag : OutFlag) (outputs : Bytes) (l : LinkEngine) : LinkEngine :=
  if l.turnaround.isSome ∨ l.sending.isSome ∨ l.receiving then
    { l with exchange := some flag, next := some (.cyclicOut flag outputs) }
  else { l with exchange := some flag, next := none, sending := some (.cyclicOut flag outputs), lastOutputs := some outputs }

/-- R70, R72: an engine whose exchange is over: no exchange, and a CYCLIC_OUT that still waits is not sent. -/
def LinkEngine.exchangeOver (l : LinkEngine) : LinkEngine :=
  { l with exchange := none
           next := match l.next with
             | some (.cyclicOut _ _) => none
             | next => next }

/-- R52, R53: an engine after a message of the card that is discarded: the turnaround starts, and nothing else changes. -/
def LinkEngine.discards (l : LinkEngine) : LinkEngine := { l with turnaround := some 1000 }

/-- R52, R62: an engine after an accepted control answer, with what it sends next when the turnaround has ended. -/
def LinkEngine.accepted (next : Option NextSend) (l : LinkEngine) : LinkEngine :=
  { l with pipe := .idle, answerTimer := none, turnaround := some 1000, next := next }

/-! ### Re-checks (R160) -/

/-- R14, R159, R160, R161: slot `j`, which waited in READY with its hold flag clear, has made its admission check against the windows
as `t` has them: it is in STARTING with START asked, or still in READY with the reason of the refusal and, when that is a new reason,
ADMIT_REFUSED posted. -/
structure Rechecks (j : SlotIx) (s t : State) : Prop where
  passes : t.admission j = none →
    t.ctx j = { s.ctx j with state := .starting, reason := none } ∧ t.link j = (s.link j).asks .start
  refused : ∀ r, t.admission j = some r →
    t.ctx j = { s.ctx j with reason := some r.reason } ∧ t.link j = s.link j
      ∧ ((s.ctx j).reason ≠ some r.reason →
        { slot := some j, cycle := t.trunk.lastCycle, body := .admitRefused r }
            ∈ t.events.events.drop s.events.events.length ∨ t.events.lost = true)

/-- R14, R160, R165: what slot `i`, which gives up what it holds, means for the slots that wait in READY with the hold flag clear: if
its input window was ARMED, and so becomes VACANT, each of them whose own windows are not RETIRING checks again; nothing else
happens to them. -/
def Rechecked (i : SlotIx) (s t : State) : Prop :=
  ∀ j, j ≠ i → (s.ctx j).state = .ready → (s.ctx j).hold = false →
    t.map j = s.map j ∧ t.slotPower j = s.slotPower j
      ∧ if (s.map i).input.isArmed = true ∧ (s.map j).output.isRetiring = false ∧ (s.map j).input.isRetiring = false then
          Rechecks j s t
        else t.ctx j = s.ctx j ∧ t.link j = s.link j

/-! ### Matching a card against what its slot holds -/

/-- R9, R10, R59, R101, R106, R107, R112, R127: matching the card `c` of slot `i`, whose identity record it is, against the enabled
record or none that the slot holds. A card that is parked posts MATCH_DONE, and a MILESTONE unless it was PARKED with the same reason
and sub-reason. A card that goes forward posts MATCH_DONE, takes the pin of its set, and is asked to train; at rate code 0 it waits
at hold point 1, or enters RUN_WAIT with a RUN entry and a pass. -/
def Matches (i : SlotIx) (c : Identity) (s t : State) : Prop :=
  let x := s.slot i
  let o := matchCard (fun n => decide ((s.store.set n).state = .closed)) c x.expected
  let y := x.ctx.matched (x.expected.any fun r => decide (r.admitMode = .onRelease)) o
  let u := post (some i) o.event (s.setSlot i { x with ctx := y })
  match o with
  | .parked reason result _ _ _ =>
    t =
      (if x.ctx.state = .parked ∧ x.ctx.reason = some reason ∧ x.ctx.result.bind MatchResult.sub = result.sub then u
       else post (some i) (.milestone .parked (some reason) (if reason = .mismatch then result.sub else none) none) u)
  | .forward _ layout rate _ =>
    let v : State := { u with store := (match layout.set with
      | some n => { s.store with sets := s.store.sets.set n { s.store.set n with pins := (s.store.set n).pins + 1 } }
      | none => s.store) }
    t = (if rate ≠ 0 then v.setSlot i { x with ctx := y, link := x.link.asks (.setRate rate) }
      else if y.hold then v
      else
        let w := v.setSlot i { x with ctx := { y with state := .runWait } }
        let e : PowerEntry := { slot := i, stage := .run, increase := max 150 c.runDraw - 150
                                priority := (x.expected.map ExpRecord.priority).getD .normal, passedOver := false }
        pass { w with power := { s.power with queue := s.power.queue ++ [e] } })

/-! ### Return frames -/

/-- Whether a span of an image covers an offset. -/
def Span.covers (w : Span) (k : Nat) : Prop := w.offset ≤ k ∧ k < w.offset + w.length

/-- R149, R150, R171, R193: what a return frame built in the state `t` reports: the attention flag, a status entry for each slot, and
an input image that is zero outside the LIVE input windows and in their FILL segments, and carries the latest good inputs in their
CARD segments while the input state is FRESH or the fill policy is HOLD. -/
structure Reports (f : ReturnFrame) (t : State) : Prop where
  attention : f.attention = true ↔ t.events.events ≠ [] ∧ t.events.moderation = 0
  slots : f.status.length = 12
  length : f.image.length = t.trunk.inLength
  entries : ∀ i : SlotIx, ∃ e : StatusEntry, f.status[i]? = some e
    ∧ ((t.ctx i).state = .empty → e.phase = .empty)
    ∧ ((t.ctx i).state ∈ [.settling, .standbyWait, .standbyInrush, .linkTraining, .identifying, .rateTraining, .runWait,
        .runInrush, .parameterizing, .starting, .admitPending] → e.phase = .bringup)
    ∧ ((t.ctx i).state = .parked → e.phase = .parked)
    ∧ ((t.ctx i).state = .ready → e.phase = .ready)
    ∧ ((t.ctx i).state ∈ [.running, .draining, .stopping] → e.phase = .running)
    ∧ ((t.ctx i).state = .withdrawn → e.phase = .withdrawn)
    ∧ ((t.ctx i).state = .faulted → e.phase = .faulted)
    ∧ (e.adapted = true ↔ ∃ l, (t.ctx i).layout = some l ∧ l.adapted = true)
    ∧ ((∀ w, (t.map i).input ≠ .live w) → e.input = .filled)
    ∧ (∀ w y, (t.map i).input = .live w → (t.map i).tables = some y →
        ((t.map i).latest = none → e.input = .filled)
        ∧ (∀ bs, (t.map i).latest = some bs →
            ((t.link i).input = .fresh → e.input = .valid)
            ∧ ((t.link i).input = .stale → y.fill = .hold → e.input = .stale)
            ∧ ((t.link i).input = .stale → y.fill = .zero → e.input = .filled)))
  outside : ∀ k, (∀ i w, (t.map i).input = .live w → ¬ w.covers k) → f.image.getD k 0 = 0
  inside : ∀ i w y k, (t.map i).input = .live w → w.covers k → k < t.trunk.inLength → (t.map i).tables = some y →
    (∀ j v, (t.map j).input = .live v → v.covers k → j = i) →
    let o := k - w.offset
    ∀ g ∈ y.inTable, (g.offset ≤ o ∧ o < g.offset + g.length) →
      (∀ h ∈ y.inTable, (h.offset ≤ o ∧ o < h.offset + h.length) → h = g) →
      (g.source = .fill → f.image.getD k 0 = 0)
      ∧ (∀ c, g.source = .card c →
          ((t.map i).latest = none → f.image.getD k 0 = 0)
          ∧ (∀ bs, (t.map i).latest = some bs →
              ((t.link i).input = .fresh ∨ y.fill = .hold → f.image.getD k 0 = bs.getD (c + (o - g.offset)) 0)
              ∧ ((t.link i).input = .stale → y.fill = .zero → f.image.getD k 0 = 0)))

/-! ### Invariants -/

/-- The Service Request Queue, the upstream transmitter and the Event Queue (R140, R175 to R177, R182, R190): the capacities
hold; the head entry is ANSWERED or DISCARDED between commands and no other entry is ANSWERED; DISCARDED entries stand before
WAITING ones; a free transmitter has nothing to send, and one that sends a response has it. -/
structure RequestsOk (s : State) : Prop where
  events : s.events.events.length ≤ 32
  requests : s.requests.queue.length ≤ 4
  answers : s.requests.holding.length ≤ 4
  head : ∀ e, s.requests.queue.head? = some e → e.state ≠ .waiting
  answered : ∀ e ∈ s.requests.queue.tail, ∀ x, e.state ≠ .answered x
  order : s.requests.queue.tail.Pairwise fun a b => a.state = .waiting → b.state = .waiting
  free : s.trunk.transmitter = .free → s.trunk.waiting = none ∧ s.requests.queue = [] ∧ s.requests.holding = []
  sendsHead : s.trunk.transmitter = .sendingHead → s.requests.queue ≠ []
  sendsBusy : s.trunk.transmitter = .sendingBusy → s.requests.holding ≠ []

/-- The Parameter Store (R115 to R118, R122): every one of the 256 blocks is in the free pool or in the block list of one set, the
pool is kept in rising order, a set's list has as many blocks as its length needs, a length is at most 4,096, the write pointer
stands at the end of an OPEN set and is absent otherwise, a FREE set is empty; and the block memory is in canonical form. -/
structure StoreOk (s : State) : Prop where
  blocks : (s.store.pool ++ (s.store.sets.toList.map SetRecord.blocks).flatten).Perm (List.range 256)
  rising : s.store.pool.Pairwise (· < ·)
  lists : ∀ n, (s.store.set n).blocks.length = ((s.store.set n).length + 255) / 256
  lengths : ∀ n, (s.store.set n).length ≤ 4096
  pointers : ∀ n, (s.store.set n).writePointer
    = if (s.store.set n).state = .opened then some (s.store.set n).length else none
  free : ∀ n, (s.store.set n).state = .free → (s.store.set n).length = 0 ∧ (s.store.set n).sum16 = 0
  memory : Memory.wf s.store.memory = true

/-- Whether the table of states (01, STATES) has the switch on, off, or either. -/
def CtxState.powered : CtxState → Option Bool
  | .empty | .settling | .standbyWait | .withdrawn | .faulted => some false
  | .draining => none
  | .standbyInrush | .linkTraining | .identifying | .parked | .rateTraining | .runWait | .runInrush | .parameterizing
  | .ready | .starting | .admitPending | .running | .stopping => some true

/-- R3: the draw of a context whose switch is on: 150 mA from a standby grant, from a run grant the declared run draw, or 150
if that is less. -/
def Context.draw (c : Context) : Nat :=
  match c.state with
  | .empty | .settling | .standbyWait | .withdrawn | .faulted => 0
  | .standbyInrush | .linkTraining | .identifying | .parked | .rateTraining | .runWait => 150
  | .runInrush | .parameterizing | .ready | .starting | .admitPending | .running | .draining | .stopping =>
    max 150 ((c.identity.map Identity.runDraw).getD 0)

/-- R45: the stage and increase of the entry a context has in the power-up queue, if it has one. -/
def Context.entry (c : Context) : List (Stage × Nat) :=
  match c.state with
  | .standbyWait => [(.standby, 150)]
  | .runWait => [(.run, max 150 ((c.identity.map Identity.runDraw).getD 0) - 150)]
  | _ => []

/-- R47: the states of the inrush owner. -/
def CtxState.inrush : CtxState → Bool
  | .standbyInrush | .runInrush => true
  | _ => false

/-- Power (R3, R41, R45, R47): switches and held draws are those of the contexts' states, committed power is their sum, the queue
holds exactly the entries of the waiting contexts, and the inrush owner is the one context in an inrush state. -/
structure PowerOk (s : State) : Prop where
  switches : ∀ i b, (s.ctx i).state.powered = some b → (s.slotPower i).switchOn = b
  draws : ∀ i, (s.ctx i).heldDraw = if (s.slotPower i).switchOn then (s.ctx i).draw else 0
  committed : s.power.committed = (allSlots.map fun i => (s.ctx i).heldDraw).sum
  entries : ∀ i, (s.power.queue.filter fun e => decide (e.slot = i)).map (fun e => (e.stage, e.increase)) = (s.ctx i).entry
  owner : ∀ i, s.power.owner = some i ↔ (s.ctx i).state.inrush = true
  deadline : ∀ i, ((s.slotPower i).deadlineTimer.isSome ∨ (s.slotPower i).minimumTimer.isSome) →
    (s.ctx i).state = .standbyInrush
  good : ∀ i, (s.slotPower i).goodSeen = true → (s.ctx i).state = .standbyInrush
  runPhase : ∀ i, (s.slotPower i).runPhaseTimer.isSome → (s.ctx i).state = .runInrush
  drains : ∀ i, (s.ctx i).state = .draining → (s.ctx i).reason = some .linkLost → (s.slotPower i).switchOn = true

/-- The window map (R158, R163, R164): the two windows of a slot are in one state, ARMED exactly in ADMIT_PENDING, LIVE exactly in
RUNNING, RETIRING in DRAINING, VACANT in STARTING; ARMED and LIVE windows lie within their images, and no two ARMED or LIVE
input windows share a byte. -/
structure MapOk (s : State) : Prop where
  paired : ∀ i, (s.map i).paired
  armed : ∀ i, (s.map i).input.isArmed = true ↔ (s.ctx i).state = .admitPending
  live : ∀ i, (s.map i).input.isLive = true ↔ (s.ctx i).state = .running
  draining : ∀ i, (s.ctx i).state = .draining → (s.map i).input.isRetiring = true
  starting : ∀ i, (s.ctx i).state = .starting → (s.map i).input = .vacant
  inOutput : ∀ i w, (s.map i).output.claimed = some w → w.offset + w.length ≤ s.trunk.outLength
  inInput : ∀ i w, (s.map i).input.claimed = some w → w.offset + w.length ≤ s.trunk.inLength
  apart : ∀ i j v w k, i ≠ j → (s.map i).input.claimed = some v → (s.map j).input.claimed = some w →
    ¬ ((v.offset ≤ k ∧ k < v.offset + v.length) ∧ (w.offset ≤ k ∧ k < w.offset + w.length))

end Sys2Proof.Machine
end

