-- ==== Sys2Proof/Certificates/Slice0/Obligations.lean ====
section
/-! DEFINITION. The statements for the provers, one definition each; OBLIGATIONS.json lists them with their tiers, their titles and
the rules or sections they rest on. -/

open Sys2Proof Sys2Proof.Machine

/-! ### Steps, power-on and the whole device -/

/-- A step executes the command at the front of the queue with the queue's rest. On an empty queue the device idles: that is the
model's choice (log entry 8), since every expiry of a timer is a command of its own. -/
def Obligations.StepTakesTheFrontCommand : Prop :=
  ∀ s : State, (∀ c rest, s.pending = c :: rest → step s = exec c { s with pending := rest })
    ∧ (s.pending = [] → step s = .next s)

/-- Every command completes in every state, and none touches the commands that wait. -/
def Obligations.EveryCommandCompletes : Prop :=
  ∀ (c : Instr) (s : State), ∃ t : State, exec c s = .next t ∧ t.pending = s.pending

/-- Reset holds the values the spec states, in every block. -/
def Obligations.ResetHoldsTheStatedValues : Prop :=
  let s := State.reset
  (∀ i : SlotIx,
    (s.ctx i).state = .empty ∧ (s.ctx i).reason = none ∧ (s.ctx i).fault = none ∧ (s.ctx i).identity = none
      ∧ (s.ctx i).result = none ∧ (s.ctx i).layout = none ∧ (s.ctx i).pinned = none ∧ (s.ctx i).progress = none
      ∧ (s.ctx i).attempts = 0 ∧ (s.ctx i).goodRun = 0 ∧ (s.ctx i).missCount = 0 ∧ (s.ctx i).hold = false
      ∧ (s.ctx i).rateCode = 0 ∧ (s.ctx i).heldDraw = 0
      ∧ (s.slotPower i).debouncer = .absent ∧ (s.slotPower i).presentTimer = none ∧ (s.slotPower i).absentTimer = none
      ∧ (s.slotPower i).switchOn = false
      ∧ (s.link i).link = .down ∧ (s.link i).lost = false ∧ (s.link i).training = none ∧ (s.link i).failures = 0
      ∧ (s.link i).echoes = 0 ∧ (s.link i).seq = 0 ∧ (s.link i).watch = false ∧ (s.link i).pipe = .idle
      ∧ (s.link i).requestNumber = 0 ∧ (s.link i).bulk = none ∧ (s.link i).exchange = none ∧ (s.link i).lastOutputs = none
      ∧ (s.link i).input = .fresh
      ∧ (s.map i).output = .vacant ∧ (s.map i).input = .vacant ∧ (s.map i).tables = none ∧ (s.map i).latest = none
      ∧ s.expected i = none)
  ∧ (∀ n : SetIx, (s.store.set n).state = .free ∧ (s.store.set n).format = 0 ∧ (s.store.set n).length = 0
      ∧ (s.store.set n).sum16 = 0 ∧ (s.store.set n).blocks = [] ∧ (s.store.set n).writePointer = none
      ∧ (s.store.set n).pins = 0)
  ∧ s.store.freeCount = 256
  ∧ s.power.committed = 0 ∧ s.power.budget = 0 ∧ s.power.queue = [] ∧ s.power.owner = none
  ∧ s.trunk.mode = .offline ∧ s.trunk.period = 0 ∧ s.trunk.outLength = 0 ∧ s.trunk.inLength = 0 ∧ s.trunk.reserve = 200
  ∧ s.trunk.lastCycle = 0 ∧ s.trunk.lossTimer = none ∧ s.trunk.tickTimer = none ∧ s.trunk.rejected = false
  ∧ s.trunk.waiting = none
  ∧ s.requests.queue = [] ∧ s.requests.holding = []
  ∧ s.events.events = [] ∧ s.events.lost = false ∧ s.events.moderation = 0 ∧ s.events.interval = 0
  ∧ s.retained = []

/-- The four invariants hold at reset. -/
def Obligations.ResetMeetsTheInvariants : Prop :=
  RequestsOk State.reset ∧ StoreOk State.reset ∧ PowerOk State.reset ∧ MapOk State.reset

/-- R2, R33, R34: POWER_ON puts every block at its power-on values; a slot whose presence line is asserted is in SETTLING with its
debouncer RISING at 10 ms, every other slot is EMPTY with its debouncer ABSENT. Choices and deductions of the model, not words of
the spec: the two input lines of a slot keep their levels (log entry 5), the presence lines are examined within the command (18), an
absence of the link-alive line counts as not yet reported (16), the transmitter is free (29), the counter of the free values and the
waiting commands stay (19). -/
def Obligations.PowerOnStartsTheDevice : Prop :=
  ∀ s : State, exec .powerOn s = .next
    { State.reset with
      slots := s.slots.map fun x =>
        if x.power.line then
          { ctx := { Context.reset with state := .settling }
            power := { SlotPower.reset true with debouncer := .rising 10000000, presentTimer := some 10000000 }
            link := LinkEngine.reset x.link.alive false, map := SlotMap.reset, expected := none }
        else
          { ctx := Context.reset, power := SlotPower.reset false, link := LinkEngine.reset x.link.alive false
            map := SlotMap.reset, expected := none }
      choices := s.choices
      pending := s.pending }

/-! ### Requests: arrival and checks -/

/-- R178: a request executed at its arrival: an unknown code is UNKNOWN; then a target outside those R179 gives is BAD_TARGET; then
a length that disagrees with the bytes received, above 512 or outside those R179 gives is BAD_LENGTH; and a request refused by any
check changes nothing but the queue that holds its answer, which carries the refusal alone (TIMING and BOUNDS carry a payload,
R180). -/
def Obligations.RequestsAreChecked : Prop :=
  ∀ (r : Request) (s : State), s.quiet →
    (requestName r.code = none → exec r.command s = .next (s.answered r (refuse .unknown)))
    ∧ (∀ name, requestName r.code = some name →
        (¬ name.targetKind.accepts r.target → exec r.command s = .next (s.answered r (refuse .badTarget)))
        ∧ (name.targetKind.accepts r.target →
            r.length.toNat ≠ r.payload.length ∨ 512 < r.length.toNat ∨ ¬ name.acceptsLength r.payload →
            exec r.command s = .next (s.answered r (refuse .badLength))))
    ∧ ∃ (t : State) (a : Answer), exec r.command s = .next (t.answered r a)
        ∧ (a.completion ≠ .done → t = s)
        ∧ (a.completion ≠ .done → a.completion ≠ .timing → a.completion ≠ .bounds → a.payload = .none)

/-- R175, R176: with 1 to 3 entries pending a request joins behind them, WAITING, and nothing else happens; with 4 it is answered
BUSY from the holding area, which takes up to 4 answers, and otherwise discarded. That the row of a request is its arrival at the
queue, and not its execution, is the model's choice (log entry 9). -/
def Obligations.RequestsJoinTheQueue : Prop :=
  ∀ (r : Request) (s : State), s.trunk.transmitter ≠ .free →
    (s.requests.queue ≠ [] → s.requests.queue.length < 4 →
      exec r.command s = .next
        { s with requests := { s.requests with queue := s.requests.queue ++ [{ request := r, state := .waiting }] } })
    ∧ (4 ≤ s.requests.queue.length → s.requests.holding.length < 4 →
      exec r.command s = .next
        { s with requests :=
          { s.requests with
            holding := s.requests.holding ++
              [{ tag := r.tag, code := r.code, target := r.target
                 answer := { completion := .busy, field := 0, payload := .none }, built := s.requests.built }]
            built := s.requests.built + 1 } })
    ∧ (4 ≤ s.requests.queue.length → 4 ≤ s.requests.holding.length → exec r.command s = .next s)

/-- R139, R174, R199: a SERVICE frame of a request is taken as the arrival of the request it carries. That the request's own row is
its arrival too, so that the two have one next state whatever waits in the queue, is the model's choice (log entry 9). -/
def Obligations.ServiceFrameCarriesItsRequest : Prop :=
  ∀ (r : Request) (s : State), r.payload.length ≤ 1444 →
    ∃ t : State, exec (.serviceRequestArrival r.frame) s = .next t ∧ exec r.command s = .next t

/-- R139, R174: a frame of fewer than 4 bytes, of another kind than CYCLE or SERVICE, a SERVICE frame whose CRC fails, and one of
fewer than 10 bytes are discarded. That all three rows of frames hand their bytes to one classification, so that such a frame is
discarded under whichever row it comes, is the model's choice (log entry 10). -/
def Obligations.FramesAreDiscarded : Prop :=
  ∀ (frame : Bytes) (s : State), let bs := frame.take 1454
    (bs.length < 4 ∨ (byteAt bs 0 ≠ 1 ∧ byteAt bs 0 ≠ 2)
      ∨ (byteAt bs 0 = 2 ∧ crc32 (bs.take (bs.length - 4)) ≠ numAt32 bs (bs.length - 4))
      ∨ (byteAt bs 0 = 2 ∧ bs.length < 10)) →
    exec (.downstreamFrameDiscard frame) s = .next s ∧ exec (.serviceRequestArrival frame) s = .next s
      ∧ exec (.cycleFrame frame) s = .next s

/-- R184, R98, R126, R125, R32, R173: the reading requests answer with what the device holds and change nothing else. That the part code
1,212 of SEG_IDENT is sent as 2 bytes, a width that R184 and the table of R196 do not give, is the model's choice (log entry 27). That
SLOT_READ reports hold point 1 in RATE_TRAINING only while the link is UP, no control request is outstanding and nothing waits to be
sent is the model's deduction (log entry 23). -/
def Obligations.ReadingRequestsOnlyAnswer : Prop :=
  ∀ (s : State) (tag : Byte), s.quiet →
    (exec (.segIdent tag 255 0 []) s = .next (s.answered (requestFor .segIdent tag 255 []) (done .ident))
      ∧ Payload.ident.encode = [7, 13, 4, 188, 1, 0, 12, 1, 0, 64, 32, 4])
    ∧ (∀ i : SlotIx, exec (.expRead tag (slotByte i) 0 []) s
        = .next (s.answered (requestFor .expRead tag (slotByte i) []) (done (.record (s.expected i)))))
    ∧ (∃ sets, exec (.psetList tag 255 0 []) s
          = .next (s.answered (requestFor .psetList tag 255 []) (done (.sets s.store.pool.length sets)))
        ∧ sets.length = 64
        ∧ ∀ n : SetIx, sets[n]? = some
            { state := (s.store.set n).state, format := (s.store.set n).format, length := (s.store.set n).length
              sum16 := (s.store.set n).sum16, blocks := (s.store.set n).blocks.length, pins := (s.store.set n).pins })
    ∧ (∀ (n : SetIx) (o₁ o₂ l₁ l₂ : Byte), 
        let offset := o₁.toNat * 256 + o₂.toNat
        let length := l₁.toNat * 256 + l₂.toNat
        exec (.psetRead tag (setByte n) 4 [o₁, o₂, l₁, l₂]) s
          = .next (s.answered (requestFor .psetRead tag (setByte n) [o₁, o₂, l₁, l₂])
              (if (s.store.set n).state = .free then { completion := .state, field := 0, payload := .none }
               else if length > 512 then { completion := .range, field := 1, payload := .none }
               else if offset + length > (s.store.set n).length then { completion := .range, field := 0, payload := .none }
               else { completion := .done, field := 0
                      payload := .bytes ((List.range length).map fun k =>
                        readCell s.store.memory
                          ((s.store.set n).blocks.getD ((offset + k) / 256) 0 * 256 + (offset + k) % 256)) })))
    ∧ (∀ i : SlotIx, ∃ atHold headroom,
        exec (.slotRead tag (slotByte i) 0 []) s = .next (s.answered (requestFor .slotRead tag (slotByte i) [])
          (done (.slot { ctx := s.ctx i, switchOn := (s.slotPower i).switchOn, link := (s.link i).link, lost := (s.link i).lost
                         atHoldPoint := atHold, headroom := headroom })))
        ∧ (atHold = true ↔ (s.ctx i).hold = true ∧ ((s.ctx i).state = .ready
            ∨ ((s.ctx i).state = .rateTraining ∧ (s.link i).link = .up ∧ (s.link i).pipe = .idle ∧ (s.link i).next = none)))
        ∧ (let need := (14 + s.trunk.outLength) * 100
              + ((12 + (s.ctx i).co + (s.ctx i).ci) * [1600, 800, 400, 200].getD (s.ctx i).rateCode.val 0 + 2000) + 5000
           headroom = if s.trunk.period = 0 ∨ (s.ctx i).layout = none ∨ need > s.trunk.period * 1000 then 0
             else (s.trunk.period * 1000 - need) / 1000))
    ∧ (∃ slots, exec (.mapRead tag 255 0 []) s = .next (s.answered (requestFor .mapRead tag 255 [])
          (done (.map s.trunk.outLength s.trunk.inLength slots)))
        ∧ slots.length = 12
        ∧ ∀ i : SlotIx, slots[i]? = some
            { output := (s.map i).output, input := (s.map i).input
              status := if (s.map i).input.isLive then some (s.map i).reported else none })

/-! ### Requests to the segment -/

/-- R42, R44: SEG_BUDGET above 20,000 is refused RANGE, field 0; any other value becomes the budget, posts BUDGET_OVERCOMMITTED
when committed power stands above it, starts a pass when it is higher than the one before, and is answered with the power block
as it then stands. That BUDGET_OVERCOMMITTED comes before the BUDGET_SHORT of that pass, when a raised budget still stands below
committed power, is the model's choice (log entry 30). -/
def Obligations.SegBudgetSetsTheBudget : Prop :=
  ∀ (s : State) (tag b₁ b₂ : Byte), s.quiet →
    let budget := b₁.toNat * 256 + b₂.toNat
    let r := requestFor .segBudget tag 255 [b₁, b₂]
    (20000 < budget → exec (.segBudget tag 255 2 [b₁, b₂]) s
      = .next (s.answered r { completion := .range, field := 0, payload := .none }))
    ∧ (budget ≤ 20000 → ∃ t : State, exec (.segBudget tag 255 2 [b₁, b₂]) s
        = .next (t.answered r (done (.power budget t.power.committed t.power.owner (queueOrder t.power.queue))))
      ∧ (let e : Event := { slot := none, cycle := s.trunk.lastCycle, body := .budgetOvercommitted budget s.power.committed }
         let u := { s with power := { s.power with budget := budget }
                           events := if s.power.committed > budget then s.events.append e else s.events }
         t = if s.power.budget < budget then pass u else u))

/-- R192, R191: SEG_ATTN replaces the interval and leaves the counter. EVT_READ removes the oldest records, takes and clears the
lost flag and loads the counter with the interval; more than 32 records are refused RANGE, field 0. -/
def Obligations.AttentionRequests : Prop :=
  ∀ (s : State) (tag b₁ b₂ : Byte), s.quiet →
    (let interval := b₁.toNat * 256 + b₂.toNat
     exec (.segAttn tag 255 2 [b₁, b₂]) s
        = .next (({ s with events := { s.events with interval := interval } } : State).answered
            (requestFor .segAttn tag 255 [b₁, b₂])
            (done (.attention interval s.events.moderation s.events.events.length))))
    ∧ (let n := b₁.toNat
       let r := requestFor .evtRead tag 255 [b₁]
       let e := { s.events with events := s.events.events.drop n, lost := false, moderation := s.events.interval }
       (32 < n → exec (.evtRead tag 255 1 [b₁]) s
          = .next (s.answered r { completion := .range, field := 0, payload := .none }))
       ∧ (n ≤ 32 → exec (.evtRead tag 255 1 [b₁]) s
          = .next (({ s with events := e } : State).answered r
            (done (.events s.events.lost (s.events.events.length - n) (s.events.events.take n))))))

/-- R152, R153, R154, R160: a SEG_CYCLE that passes every check replaces the configuration, restarts or stops the timer of the
mode, and has every READY context without hold make its admission check, whichever is checked first: the check passes to STARTING
with START asked, or sets the reason. It is answered with the new values and both needs. -/
def Obligations.SegCycleSetsTheConfiguration : Prop :=
  ∀ (s : State) (tag p₁ p₂ o₁ o₂ i₁ i₂ g₁ g₂ : Byte), s.quiet →
    let p := p₁.toNat * 256 + p₂.toNat
    let o := o₁.toNat * 256 + o₂.toNat
    let i := i₁.toNat * 256 + i₂.toNat
    let g := g₁.toNat * 256 + g₂.toNat
    let payload : Bytes := [p₁, p₂, o₁, o₂, i₁, i₂, g₁, g₂]
    let down := (14 + o + 12 + g) * 100
    let up := (38 + i + 12 + g) * 100
    let u : State := { s with trunk := s.trunk.configured p o i g }
    CycleInRange p o i g →
    (p = 0 → ∀ j, (s.map j).output.claimed = none ∧ (s.map j).input.claimed = none) →
    (p ≠ 0 → down ≤ p * 1000 ∧ up ≤ p * 1000 ∧ (∀ j, (s.map j).within o i) ∧ ∀ j, (s.ctx j).suits p o) →
    ∃ t : State, exec (.segCycle tag 255 8 payload) s
        = .next (t.answered (requestFor .segCycle tag 255 payload) (done (.cycle p o i g down up)))
      ∧ t.trunk = s.trunk.configured p o i g
      ∧ t.power = s.power ∧ t.store = s.store ∧ t.retained = s.retained ∧ t.pending = s.pending ∧ t.requests = s.requests
      ∧ s.events.events <+: t.events.events
      ∧ (∀ j, t.slot j =
          if (s.ctx j).state = .ready ∧ (s.ctx j).hold = false ∧ (s.map j).output.isRetiring = false
              ∧ (s.map j).input.isRetiring = false then
            (match u.admission j with
             | none => { s.slot j with ctx := { s.ctx j with state := .starting, reason := none }
                                       link := (s.link j).asks .start }
             | some r => { s.slot j with ctx := { s.ctx j with reason := some r.reason } })
          else s.slot j)
      ∧ ∀ j r, (s.ctx j).state = .ready → (s.ctx j).hold = false → (s.map j).output.isRetiring = false →
          (s.map j).input.isRetiring = false → u.admission j = some r → (s.ctx j).reason ≠ some r.reason →
          Posted (some j) (.admitRefused r) s t

/-- R152 steps 3 to 7: a SEG_CYCLE is refused by the first check that fails, and then changes nothing. -/
def Obligations.SegCycleIsRefusedInOrder : Prop :=
  ∀ (s : State) (tag p₁ p₂ o₁ o₂ i₁ i₂ g₁ g₂ : Byte), s.quiet →
    let p := p₁.toNat * 256 + p₂.toNat
    let o := o₁.toNat * 256 + o₂.toNat
    let i := i₁.toNat * 256 + i₂.toNat
    let g := g₁.toNat * 256 + g₂.toNat
    let payload : Bytes := [p₁, p₂, o₁, o₂, i₁, i₂, g₁, g₂]
    let down := (14 + o + 12 + g) * 100
    let up := (38 + i + 12 + g) * 100
    let answers := fun (c : Completion) (k : Nat) (d : Payload) => exec (.segCycle tag 255 8 payload) s
      = .next (s.answered (requestFor .segCycle tag 255 payload) { completion := c, field := k, payload := d })
    let badPeriod := p ≠ 0 ∧ (p < 125 ∨ 16000 < p)
    (badPeriod → answers .range 0 .none)
    ∧ (¬ badPeriod → 1440 < o → answers .range 1 .none)
    ∧ (¬ badPeriod → o ≤ 1440 → 1440 < i → answers .range 2 .none)
    ∧ (¬ badPeriod → o ≤ 1440 → i ≤ 1440 → g < 64 ∨ 1024 < g → answers .range 3 .none)
    ∧ (CycleInRange p o i g →
        (p = 0 → (∃ j, (s.map j).output.claimed ≠ none ∨ (s.map j).input.claimed ≠ none) → answers .state 0 .none)
        ∧ (p ≠ 0 → p * 1000 < down → answers .timing 0 (.lineTiming false))
        ∧ (p ≠ 0 → down ≤ p * 1000 → p * 1000 < up → answers .timing 0 (.lineTiming true))
        ∧ (p ≠ 0 → down ≤ p * 1000 → up ≤ p * 1000 →
            (∀ j w, (s.map j).output.claimed = some w → o < w.offset + w.length →
              (∀ k, k < j → (s.map k).within o i) → answers .bounds 0 (.outOfBounds j .output))
            ∧ (∀ j w, (s.map j).input.claimed = some w → i < w.offset + w.length →
              (∀ v, (s.map j).output.claimed = some v → v.offset + v.length ≤ o) →
              (∀ k, k < j → (s.map k).within o i) → answers .bounds 0 (.outOfBounds j .input))
            ∧ ((∀ j, (s.map j).within o i) → ∀ j, ¬ (s.ctx j).suits p o → (∀ k, k < j → (s.ctx k).suits p o) →
              answers .timing 0 (.slotTiming j ((s.ctx j).need o)))))

/-- R156, R158, R159: the admission check examines NO_CYCLE, TIMING, BOUNDS (output, then input) and OVERLAP in this order, and
the first that fails gives the reason with its figures. -/
def Obligations.AdmissionIsCheckedInOrder : Prop :=
  ∀ (s : State) (i : SlotIx) (l : Layout) (c : Identity), (s.ctx i).layout = some l → (s.ctx i).identity = some c →
    let t := s.trunk
    let need := (14 + t.outLength) * 100
      + ((12 + c.co + c.ci) * [1600, 800, 400, 200].getD (s.ctx i).rateCode.val 0 + 2000) + 5000
    let outEnd := l.outWindow.offset + l.outWindow.length
    let inEnd := l.inWindow.offset + l.inWindow.length
    let shares := fun (j : SlotIx) => j ≠ i ∧ ∃ w k, (s.map j).input.claimed = some w
      ∧ (w.offset ≤ k ∧ k < w.offset + w.length) ∧ l.inWindow.offset ≤ k ∧ k < inEnd
    (t.period = 0 → s.admission i = some .noCycle)
    ∧ (t.period ≠ 0 →
        (t.period * 1000 < need → s.admission i = some (.timing need t.period))
        ∧ (need ≤ t.period * 1000 →
            (t.outLength < outEnd → s.admission i = some (.bounds .output outEnd t.outLength))
            ∧ (outEnd ≤ t.outLength →
                (t.inLength < inEnd → s.admission i = some (.bounds .input inEnd t.inLength))
                ∧ (inEnd ≤ t.inLength →
                    ((∀ j, ¬ shares j) → s.admission i = none)
                    ∧ ∀ j, shares j → (∀ k, k < j → ¬ shares k) →
                        s.admission i = some (.overlap j (s.map j).input.isLive)))))

/-- R185, R2, R51, R54, R119, R141, R164, R168, R194: SEG_RESET at an empty queue resets every block and keeps the records, the sets,
the budget, the cycle configuration and the attention interval. A slot whose presence line is asserted is in SETTLING, every other
is EMPTY; the one event queued is RESET_DONE with cycle number 0. Deductions of the model: the presence lines are examined within
the command, so that a seated card is in SETTLING in the very next state (log entry 18), and whether the present absence of a
link-alive line has been reported is kept (16). -/
def Obligations.SegResetResetsTheBlocks : Prop :=
  ∀ (s : State) (tag : Byte), s.quiet →
    exec (.segReset tag 255 0 []) s = .next (({ s with
      slots := s.slots.map fun x =>
        if x.power.line then
          { ctx := { Context.reset with state := .settling }
            power := { SlotPower.reset true with debouncer := .rising 10000000, presentTimer := some 10000000 }
            link := x.link.gone, map := SlotMap.reset, expected := x.expected }
        else
          { ctx := Context.reset, power := SlotPower.reset false, link := x.link.gone, map := SlotMap.reset
            expected := x.expected }
      power := { committed := 0, budget := s.power.budget, queue := [], owner := none }
      trunk := { s.trunk with
        mode := .offline, lastCycle := 0, lossTimer := none
        tickTimer := if s.trunk.period = 0 then none else some (s.trunk.period * 1000)
        rejected := false, waiting := none }
      store := { s.store with sets := s.store.sets.map SetRecord.unpinned }
      events := { events := [{ slot := none, cycle := 0, body := .resetDone }], lost := false, moderation := 0
                  interval := s.events.interval }
      retained := [] } : State).answered (requestFor .segReset tag 255 []) (done .none))

/-- R186: a SEG_RESET executed with entries behind it has each of them DISCARDED, its answer built after the SEG_RESET's own and in
arrival order; the holding area stands. A SEG_RESET of another target or length discards nothing: what it does behind another entry
is said in ResponseSentExecutesTheNext. -/
def Obligations.SegResetDiscardsWhatWaitsBehind : Prop :=
  ∀ (s : State) (e₀ e : Entry) (rest : List Entry), s.trunk.transmitter = .sendingHead →
    s.requests.queue = e₀ :: e :: rest → e.state = .waiting →
    e.request.code = 5 → e.request.target = 255 → e.request.length = 0 → e.request.payload = [] →
    ∃ t : State, exec .serviceResponseSent s = .next t
      ∧ t.requests =
        { queue :=
            { e with state := .answered { tag := e.request.tag, code := e.request.code, target := e.request.target
                                          answer := { completion := .done, field := 0, payload := .none }
                                          built := s.requests.built } }
            :: rest.mapIdx fun k x =>
              { x with state := .discarded { tag := x.request.tag, code := x.request.code, target := x.request.target
                                             answer := { completion := .discarded, field := 0, payload := .none }
                                             built := s.requests.built + 1 + k } }
          holding := s.requests.holding
          built := s.requests.built + 1 + rest.length }
      ∧ t.events.events = [{ slot := none, cycle := 0, body := .resetDone }]
      ∧ t.trunk.mode = .offline ∧ t.trunk.transmitter = .gap 1200
      ∧ t.power.committed = 0 ∧ ∀ i, t.expected i = s.expected i

/-! ### Requests to the Expected Configuration Table -/

/-- R95: an EXP_LOAD of the length its counts imply is refused with RANGE and the index of the first of the fields 0 to 14 that is
out of its range, as LoadBad spells the ranges, and one whose fields are all in range with STATE in the seven states from
RATE_TRAINING to ADMIT_PENDING. EXP_CLEAR is refused with STATE in the same seven. Refused, they change nothing. What the other
statements call out of range (loadOutOfRange) is LoadBad. -/
def Obligations.RecordRequestsAreRefused : Prop :=
  ∀ (s : State) (tag : Byte) (i : SlotIx) (p : Bytes), s.quiet → RequestName.expLoad.acceptsLength p → p.length ≤ 512 →
    let answers := fun (c : Completion) (k : Nat) =>
      exec (.expLoad tag (slotByte i) (BitVec.ofNat 16 p.length) p) s
        = .next (s.answered (requestFor .expLoad tag (slotByte i) p) { completion := c, field := k, payload := .none })
    (∀ k, loadOutOfRange p k = true ↔ LoadBad p k)
    ∧ (∀ k, LoadBad p k → (∀ m, m < k → ¬ LoadBad p m) → answers .range k)
    ∧ ((s.ctx i).state ∈ [.rateTraining, .runWait, .runInrush, .parameterizing, .ready, .starting, .admitPending] →
        ((∀ k, ¬ LoadBad p k) → answers .state 0)
        ∧ exec (.expClear tag (slotByte i) 0 []) s
          = .next (s.answered (requestFor .expClear tag (slotByte i) []) { completion := .state, field := 0, payload := .none }))

/-- R96, R99: an accepted EXP_LOAD stores the record it carries and is answered with the two window lengths. In EMPTY, SETTLING,
WITHDRAWN and FAULTED, and for an enabled record in STANDBY_WAIT to IDENTIFYING, that is its whole effect; in RUNNING, DRAINING
and STOPPING it also posts EXPECT_CHANGED, which says whether the record places the slot otherwise than its admitted layout. -/
def Obligations.ExpLoadStoresTheRecord : Prop :=
  ∀ (s : State) (tag : Byte) (i : SlotIx) (p : Bytes), s.quiet → RequestName.expLoad.acceptsLength p → p.length ≤ 512 →
    (∀ k, loadOutOfRange p k = false) →
    let record := loadRecord p
    let st := (s.ctx i).state
    let stored := s.setSlot i { s.slot i with expected := some record }
    let answers := fun (t : State) => exec (.expLoad tag (slotByte i) (BitVec.ofNat 16 p.length) p) s
      = .next (t.answered (requestFor .expLoad tag (slotByte i) p) (done (.windowLengths record.outLength record.inLength)))
    (st ∈ [.empty, .settling, .withdrawn, .faulted] → answers stored)
    ∧ (st ∈ [.standbyWait, .standbyInrush, .linkTraining, .identifying] → record.enabled = true → answers stored)
    ∧ (st ∈ [.running, .draining, .stopping] → ∃ differs : Bool,
        answers (post (some i) (.expectChanged st false differs) stored)
        ∧ ∀ l, (s.ctx i).layout = some l →
          (differs = false ↔ l.outWindow.offset = record.outOffset ∧ l.outWindow.length = record.outLength
            ∧ l.inWindow.offset = record.inOffset ∧ l.inWindow.length = record.inLength ∧ l.fill = record.fill ∧ l.set = record.set))

/-- R96, R30: a DISABLED record loaded in STANDBY_WAIT to PARKED is stored and withdraws the slot. -/
def Obligations.DisabledRecordWithdraws : Prop :=
  ∀ (s : State) (tag : Byte) (i : SlotIx) (p : Bytes), s.quiet → PowerOk s → MapOk s →
    RequestName.expLoad.acceptsLength p → p.length ≤ 512 → (∀ k, loadOutOfRange p k = false) →
    let record := loadRecord p
    record.enabled = false →
    (s.ctx i).state ∈ [.standbyWait, .standbyInrush, .linkTraining, .identifying, .parked] →
    ∃ t : State, exec (.expLoad tag (slotByte i) (BitVec.ofNat 16 p.length) p) s
        = .next (t.answered (requestFor .expLoad tag (slotByte i) p) (done (.windowLengths record.outLength record.inLength)))
      ∧ Withdraws i .disabled (s.setSlot i { s.slot i with expected := some record }) t

/-- R97: EXP_CLEAR removes the record: it is the whole effect but in RUNNING, DRAINING and STOPPING, where EXPECT_CHANGED is posted,
and in PARKED, where the card is matched again. Without a record it changes nothing. -/
def Obligations.ExpClearRemovesTheRecord : Prop :=
  ∀ (s : State) (tag : Byte) (i : SlotIx), s.quiet →
    let st := (s.ctx i).state
    let cleared := s.setSlot i { s.slot i with expected := none }
    let answers := fun (t : State) => exec (.expClear tag (slotByte i) 0 []) s
      = .next (t.answered (requestFor .expClear tag (slotByte i) []) (done .none))
    st ∉ [.rateTraining, .runWait, .runInrush, .parameterizing, .ready, .starting, .admitPending] →
      (s.expected i = none → answers s)
      ∧ (s.expected i ≠ none → st ∉ [.running, .draining, .stopping, .parked] → answers cleared)
      ∧ (s.expected i ≠ none → st ∈ [.running, .draining, .stopping] →
          answers (post (some i) (.expectChanged st true true) cleared))

/-- R9, R10, R101, R107, R112, R127: an EXP_LOAD of an enabled record, or an EXP_CLEAR that removes a record, in PARKED matches the
identified card again against what the slot now holds. A card that is parked again posts MATCH_DONE, and a MILESTONE unless reason
and sub-reason are those it had; a card that goes forward takes its pin and is asked to train, or, at rate code 0, waits at hold
point 1 or joins the power-up queue. -/
def Obligations.ParkedCardIsMatchedAgain : Prop :=
  ∀ (s : State) (tag : Byte) (i : SlotIx) (c : Identity), s.quiet → (s.ctx i).state = .parked → (s.ctx i).identity = some c →
    let matchedAs := fun (record : Option ExpRecord) (t : State) =>
      Matches i c (s.setSlot i { s.slot i with expected := record }) t
    (∀ p, RequestName.expLoad.acceptsLength p → p.length ≤ 512 → (∀ k, loadOutOfRange p k = false) →
      (loadRecord p).enabled = true →
      ∃ t : State, exec (.expLoad tag (slotByte i) (BitVec.ofNat 16 p.length) p) s
          = .next (t.answered (requestFor .expLoad tag (slotByte i) p)
              (done (.windowLengths (loadRecord p).outLength (loadRecord p).inLength)))
        ∧ matchedAs (some (loadRecord p)) t)
    ∧ (s.expected i ≠ none →
        ∃ t : State, exec (.expClear tag (slotByte i) 0 []) s
            = .next (t.answered (requestFor .expClear tag (slotByte i) []) (done .none))
          ∧ matchedAs none t)

/-! ### Requests to the Parameter Store -/

/-- R121, R124: PSET_OPEN and PSET_DROP refuse a CLOSED set with pins as PINNED. Otherwise the set's blocks return to the pool, which
stays in rising order, and the set is OPEN and empty with the format id carried, or FREE; no other set and no byte changes. -/
def Obligations.PsetOpenAndDropFreeTheBlocks : Prop :=
  ∀ (s : State) (tag f₁ f₂ : Byte) (n : SetIx), s.quiet → StoreOk s →
    let x := s.store.set n
    let opens := fun a (t : State) => exec (.psetOpen tag (setByte n) 2 [f₁, f₂]) s
      = .next (t.answered (requestFor .psetOpen tag (setByte n) [f₁, f₂]) a)
    let drops := fun a (t : State) => exec (.psetDrop tag (setByte n) 0 []) s
      = .next (t.answered (requestFor .psetDrop tag (setByte n) []) a)
    let pinned : Answer := { completion := .pinned, field := 0, payload := .none }
    (x.state = .closed ∧ 0 < x.pins → opens pinned s ∧ drops pinned s)
    ∧ (¬ (x.state = .closed ∧ 0 < x.pins) → ∃ pool : List Nat, pool.Perm (s.store.pool ++ x.blocks) ∧ pool.Pairwise (· < ·)
        ∧ opens (done (.freeBlocks pool.length)) { s with store := { s.store with
            pool := pool
            sets := s.store.sets.set n { state := .opened, format := f₁.toNat * 256 + f₂.toNat, length := 0, sum16 := 0
                                         blocks := [], writePointer := some 0, pins := x.pins } } }
        ∧ (x.state ≠ .free → drops (done .none) { s with store := { s.store with
            pool := pool
            sets := s.store.sets.set n { state := .free, format := 0, length := 0, sum16 := 0, blocks := []
                                         writePointer := none, pins := 0 } } }))
    ∧ (x.state = .free → drops (done .none) s)

/-- R122, R115, R117, R118: PSET_WRITE refuses NOT_OPEN, TOO_LONG and NO_SPACE in this order. A write that passes takes the new blocks
from the pool lowest number first, appends its bytes at the old length, and advances length, write pointer and sum16; every byte
the set held, and every byte of every other set, reads as before. -/
def Obligations.PsetWriteAppends : Prop :=
  ∀ (s : State) (tag : Byte) (n : SetIx) (bytes : Bytes), s.quiet → StoreOk s → 1 ≤ bytes.length → bytes.length ≤ 512 →
    let x := s.store.set n
    let length := x.length + bytes.length
    let need := (length + 255) / 256 - x.blocks.length
    let writes := fun a (t : State) => exec (.psetWrite tag (setByte n) (BitVec.ofNat 16 bytes.length) bytes) s
      = .next (t.answered (requestFor .psetWrite tag (setByte n) bytes) a)
    let refused := fun (c : Completion) => writes { completion := c, field := 0, payload := .none } s
    (x.state ≠ .opened → refused .notOpen)
    ∧ (x.state = .opened → 4096 < length → refused .tooLong)
    ∧ (x.state = .opened → length ≤ 4096 → s.store.pool.length < need → refused .noSpace)
    ∧ (x.state = .opened → length ≤ 4096 → need ≤ s.store.pool.length → ∃ memory : List Host.Cell,
        let y : SetRecord := { x with
          length := length, writePointer := some length, blocks := x.blocks ++ s.store.pool.take need
          sum16 := (x.sum16 + (bytes.map BitVec.toNat).sum) % 65536 }
        let u : State := { s with
          store := { sets := s.store.sets.set n y, pool := s.store.pool.drop need, memory := memory } }
        writes (done (.written length (s.store.pool.length - need))) u
        ∧ (∀ k, k < length → u.store.byteOf y k
            = if k < x.length then s.store.byteOf x k else bytes.getD (k - x.length) 0)
        ∧ (∀ m k, m ≠ n → k < (s.store.set m).length → u.store.byteOf (u.store.set m) k = s.store.byteOf (s.store.set m) k)
        ∧ Memory.wf memory = true)

/-- R123, R113: PSET_CLOSE of a set that is not OPEN is refused NOT_OPEN. Otherwise the set is CLOSED, its length, sum16, format and
blocks standing; it is answered with length and sum16; every context PARKED with SET_UNAVAILABLE whose record names the set is
matched again against it and posts its MATCH_DONE, and when it stays PARKED a MILESTONE with the new reason (R112, R31); one whose
record is DISABLED gives up what it holds and is WITHDRAWN (R101). No other slot changes but those a pass grants. -/
def Obligations.PsetCloseFixesTheSet : Prop :=
  ∀ (s : State) (tag : Byte) (n : SetIx), s.quiet → PowerOk s → MapOk s →
    let x := s.store.set n
    let waits := fun i => (s.ctx i).state = .parked ∧ (s.ctx i).reason = some .setUnavailable
      ∧ ∃ r, s.expected i = some r ∧ r.set = some n
    let closes := fun a (t : State) => exec (.psetClose tag (setByte n) 0 []) s
      = .next (t.answered (requestFor .psetClose tag (setByte n) []) a)
    (x.state ≠ .opened → closes { completion := .notOpen, field := 0, payload := .none } s)
    ∧ (x.state = .opened → ∃ t : State, closes (done (.closed x.length x.sum16)) t
        ∧ { t.store.set n with pins := x.pins } = { x with state := .closed, writePointer := none }
        ∧ (∀ m, m ≠ n → (t.store.set m).unpinned = (s.store.set m).unpinned)
        ∧ t.store.pool = s.store.pool ∧ t.store.memory = s.store.memory
        ∧ t.trunk = s.trunk ∧ t.power.budget = s.power.budget ∧ (∀ i, t.expected i = s.expected i)
        ∧ s.events.events <+: t.events.events
        ∧ (∀ i, ¬ waits i → t.slot i = s.slot i ∨ ∃ e ∈ s.power.queue, e.slot = i)
        ∧ (∀ i r, waits i → s.expected i = some r → r.enabled = false → (s.ctx i).identity ≠ none →
          t.slot i = { s.slot i with
            ctx := (s.ctx i).withdrawn .disabled, power := (s.slotPower i).off, link := (s.link i).gone, map := (s.map i).released }
          ∧ (∀ e ∈ t.power.queue, e.slot ≠ i)
          ∧ Posted (some i) (.milestone .withdrawn (some .disabled) none none) s t)
        ∧ ∀ i r c, waits i → s.expected i = some r → r.enabled = true → (s.ctx i).identity = some c →
          let o := matchCard (fun m => decide (m = n ∨ (s.store.set m).state = .closed)) c (some r)
          let y := (s.ctx i).matched (decide (r.admitMode = .onRelease)) o
          Posted (some i) o.event s t
          ∧ (match o with
            | .parked reason result _ _ _ => t.slot i = { s.slot i with ctx := y }
                ∧ Posted (some i) (.milestone .parked (some reason) (if reason = .mismatch then result.sub else none) none) s t
            | .forward _ _ rate _ =>
              ((∀ j e, waits j → s.expected j = some e → e.enabled = true) → (t.store.set n).pins > x.pins)
                ∧ if rate ≠ 0 then t.slot i = { s.slot i with ctx := y, link := (s.link i).asks (.setRate rate) }
                  else if y.hold then t.slot i = { s.slot i with ctx := y }
                  else t.ctx i = { y with state := .runWait }
                    ∨ t.ctx i = { y with state := .runInrush, heldDraw := max 150 c.runDraw }))

/-! ### Requests to the slot contexts -/

/-- R18, R19, R11, R14: SLOT_HOLD sets the flag. SLOT_RELEASE clears it; a context at hold point 1 enters RUN_WAIT with a RUN entry,
one in READY makes the admission check, and elsewhere clearing the flag is the whole effect. That RATE_TRAINING counts as hold point
1 only while the link is UP, no control request is outstanding and nothing waits to be sent, so that a release while SET_RATE is on
its way clears the flag alone, is the model's deduction (log entry 23). -/
def Obligations.HoldAndRelease : Prop :=
  ∀ (s : State) (tag : Byte) (i : SlotIx), s.quiet →
    let c := s.ctx i
    let y := { c with hold := false }
    let u := s.setSlot i { s.slot i with ctx := y }
    let atPoint := (s.link i).link = .up ∧ (s.link i).pipe = .idle ∧ (s.link i).next = none
    let releases := fun (t : State) => exec (.slotRelease tag (slotByte i) 0 []) s
      = .next (t.answered (requestFor .slotRelease tag (slotByte i) []) (done .none))
    exec (.slotHold tag (slotByte i) 0 []) s
        = .next ((s.setSlot i { s.slot i with ctx := { c with hold := true } }).answered
            (requestFor .slotHold tag (slotByte i) []) (done .none))
    ∧ (c.state ≠ .rateTraining → c.state ≠ .ready → releases u)
    ∧ (c.state = .rateTraining → ¬ atPoint → releases u)
    ∧ (c.state = .rateTraining → atPoint → releases
        (pass { s.setSlot i { s.slot i with ctx := { y with state := .runWait, reason := none } } with
          power := { s.power with queue := s.power.queue ++
            [{ slot := i, stage := .run, increase := max 150 ((c.identity.map Identity.runDraw).getD 0) - 150
               priority := ((s.expected i).map ExpRecord.priority).getD .normal, passedOver := false }] } }))
    ∧ (c.state = .ready →
        ((s.map i).output.isRetiring = true ∨ (s.map i).input.isRetiring = true → releases u)
        ∧ ((s.map i).output.isRetiring = false → (s.map i).input.isRetiring = false →
            (s.admission i = none → releases (s.setSlot i
              { s.slot i with ctx := { y with state := .starting, reason := none }, link := (s.link i).asks .start }))
            ∧ (∀ r, s.admission i = some r →
                let v := s.setSlot i { s.slot i with ctx := { y with reason := some r.reason } }
                releases (if c.reason = some r.reason then v else post (some i) (.admitRefused r) v))))

/-- R28, R36, R160: SLOT_RESTART is refused with STATE in EMPTY. In every other state the slot gives up what it holds, its LIVE windows
retire, its context is cleared but for the hold flag and enters SETTLING, and its debouncer starts anew with 100 ms, on the absent
timer while the line is dropped. If its windows were ARMED, every other READY context without hold checks again (Rechecked). -/
def Obligations.RestartSettlesTheSlot : Prop :=
  ∀ (s : State) (tag : Byte) (i : SlotIx), s.quiet → PowerOk s → MapOk s →
    let restarts := fun a (t : State) => exec (.slotRestart tag (slotByte i) 0 []) s
      = .next (t.answered (requestFor .slotRestart tag (slotByte i) []) a)
    ((s.ctx i).state = .empty → restarts { completion := .state, field := 0, payload := .none } s)
    ∧ ((s.ctx i).state ≠ .empty → ∃ t : State, restarts (done .none) t
        ∧ t.slot i = { s.slot i with
            ctx := { Context.reset with state := .settling, hold := (s.ctx i).hold }
            power := { (s.slotPower i).off with
              debouncer := .rising 100000000
              presentTimer := if (s.slotPower i).line then some 100000000 else none
              absentTimer := if (s.slotPower i).line then none else some 2000000 }
            link := (s.link i).gone
            map := match (s.map i).output, (s.map i).input with
              | .live v, .live w => { s.map i with output := .retiring v, input := .retiring w }
              | _, _ => (s.map i).released }
        ∧ (∀ e ∈ t.power.queue, e.slot ≠ i) ∧ Unpinned (s.ctx i).pinned s t ∧ Kept i s t ∧ Rechecked i s t)

/-- R29, R24, R160: SLOT_WITHDRAW is refused with STATE in EMPTY and SETTLING and does nothing in STOPPING and WITHDRAWN; in RUNNING the
windows retire and the context drains with cause COMMAND; in DRAINING the cause becomes COMMAND unless it is PRESENCE_LOST; in
FAULTED the context is WITHDRAWN and keeps its fault record; elsewhere the slot gives up what it holds and is WITHDRAWN, and from
ADMIT_PENDING, where that disarms its windows, every other READY context without hold checks again (Rechecked). -/
def Obligations.WithdrawEndsTheSlot : Prop :=
  ∀ (s : State) (tag : Byte) (i : SlotIx), s.quiet →
    let c := s.ctx i
    let withdraws := fun a (t : State) => exec (.slotWithdraw tag (slotByte i) 0 []) s
      = .next (t.answered (requestFor .slotWithdraw tag (slotByte i) []) a)
    (c.state ∈ [.empty, .settling] → withdraws { completion := .state, field := 0, payload := .none } s)
    ∧ (c.state ∈ [.stopping, .withdrawn] → withdraws (done .none) s)
    ∧ (∀ v w, c.state = .running → (s.map i).output = .live v → (s.map i).input = .live w →
        withdraws (done .none) (s.setSlot i { s.slot i with
          ctx := { c with state := .draining, reason := some .command }
          map := { s.map i with output := .retiring v, input := .retiring w } }))
    ∧ (c.state = .draining → withdraws (done .none) (s.setSlot i { s.slot i with
        ctx := { c with reason := if c.reason = some .presenceLost then some .presenceLost else some .command } }))
    ∧ (c.state = .faulted → withdraws (done .none)
        (post (some i) (.milestone .withdrawn (some .command) none none)
          (s.setSlot i { s.slot i with ctx := { c with state := .withdrawn, reason := some .command } })))
    ∧ (c.state ∈ [.standbyWait, .standbyInrush, .linkTraining, .identifying, .parked, .rateTraining, .runWait, .runInrush,
          .parameterizing, .ready, .starting, .admitPending] → PowerOk s → MapOk s →
        ∃ t : State, withdraws (done .none) t ∧ Withdraws i .command s t ∧ Rechecked i s t)

/-! ### The trunk -/

/-- R142, R143, R149, R151, R168, R193: a good cycle frame of L_out image bytes is a mark: it sets the last good cycle number, clears
the rejected field, makes the mode SYNCHRONIZED (posting CYCLE_STATE before every other event of the mark when it was not), restarts
the cycle-loss timer when P is not 0, keeps the image, dates every event with its number, and builds a return frame that reports the
state it leaves (Reports: R150, R171, R193), which a free transmitter sends and another keeps waiting. -/
def Obligations.MarkAtTheTrunk : Prop :=
  ∀ (s : State) (flags : Byte) (number : Nat) (image : Bytes), number < 4294967296 →
    image.length ≤ 1440 → image.length = s.trunk.outLength →
    ∃ t : State, exec (.cycleFrame (cycleFrameBytes flags number image)) s = .next t
      ∧ (∃ f : ReturnFrame, f.mode = .synchronized ∧ f.rejected = false ∧ f.cycle = number ∧ Reports f t
        ∧ t.trunk = { s.trunk with
          mode := .synchronized, lastCycle := number, rejected := false, tickTimer := none
          lossTimer := if s.trunk.period = 0 then s.trunk.lossTimer else some (3 * s.trunk.period * 1000)
          transmitter := if s.trunk.transmitter = .free then .sendingReturn f else s.trunk.transmitter
          waiting := if s.trunk.transmitter = .free then none else some f })
      ∧ t.retained = image ∧ t.requests = s.requests ∧ t.pending = s.pending
      ∧ (∀ i, t.expected i = s.expected i) ∧ t.power.budget = s.power.budget
      ∧ s.events.events <+: t.events.events
      ∧ (∀ e ∈ t.events.events.drop s.events.events.length, e.cycle = number)
      ∧ (s.trunk.mode ≠ .synchronized → s.events.events.length < 32 →
          (t.events.events.drop s.events.events.length).head?
            = some { slot := none, cycle := number, body := .cycleState s.trunk.mode .synchronized })

/-- R16, R165, R167, R169, R70: a mark makes the ARMED windows of a context in ADMIT_PENDING LIVE and the context RUNNING with miss
count and good-exchange run 0, posts its MILESTONE, and starts its first exchange, VALID or INVALID as the frame says, with the
outputs built from the frame's image. -/
def Obligations.MarkMakesArmedWindowsLive : Prop :=
  ∀ (s : State) (flags : Byte) (number : Nat) (image : Bytes) (i : SlotIx) (v w : Span),
    number < 4294967296 → image.length ≤ 1440 → image.length = s.trunk.outLength → PowerOk s → MapOk s →
    (s.ctx i).state = .admitPending → (s.map i).output = .armed v → (s.map i).input = .armed w →
    ∃ t : State, exec (.cycleFrame (cycleFrameBytes flags number image)) s = .next t
      ∧ t.ctx i = { s.ctx i with state := .running, reason := none, missCount := 0, goodRun := 0 }
      ∧ t.map i = { s.map i with output := .live v, input := .live w, reported := (t.slot i).statusInput }
      ∧ t.slotPower i = s.slotPower i
      ∧ ({ slot := some i, cycle := number, body := .milestone .running none none none }
            ∈ t.events.events.drop s.events.events.length ∨ t.events.lost = true)
      ∧ ((s.link i).link = .up → (s.link i).lost = false → ∃ outputs : Bytes,
          outputs.length = (s.ctx i).co
          ∧ (∀ k, k < (s.ctx i).co → outputs.getD k 0
              = outputByte image s.trunk.outLength v.offset (((s.map i).tables.map TableCopy.outTable).getD []) k)
          ∧ t.link i = (s.link i).exchanges (if flags.getLsbD 0 then .valid else .invalid) outputs)

/-- R17, R23, R70, R71, R72, R169: for a RUNNING slot with an exchange in flight, a mark, a bad frame with P not 0 and a local tick are
exchange starts: the exchange in flight is a miss. Below the third, the inputs are STALE and a new exchange starts, with outputs built
from the frame's image or the retained one, or with the last outputs for HOLD. While the pair is not quiet, as when the card is still
sending its answer, the CYCLIC_OUT waits and the rest of that answer is to be discarded. The third miss sets the lost mark, raises
attempts, retires the windows and takes the context to DRAINING with cause LINK_LOST, and no exchange starts. Whether the card is
still sending at that moment is up to the card, and a free value of the model (log entry 31). -/
def Obligations.ExchangeStartsConcludeTheLast : Prop :=
  ∀ (s : State) (c : Instr) (flag : OutFlag) (source : Option Bytes) (i : SlotIx) (v w : Span),
    PowerOk s → MapOk s →
    (s.ctx i).state = .running → (s.link i).exchange ≠ none → (s.link i).link = .up → (s.link i).lost = false →
    (s.map i).output = .live v → (s.map i).input = .live w →
    ((∃ flags number image, number < 4294967296 ∧ image.length ≤ 1440 ∧ image.length = s.trunk.outLength
          ∧ c = .cycleFrame (cycleFrameBytes flags number image) ∧ flag = (if flags.getLsbD 0 then .valid else .invalid)
          ∧ source = some image)
      ∨ (∃ frame, IsBadCycleFrame (frame.take 1454) s.trunk.outLength ∧ s.trunk.period ≠ 0 ∧ c = .cycleFrame frame
          ∧ flag = .hold ∧ source = none)
      ∨ (s.trunk.tickTimer ≠ none ∧ c = .localTick ∧ flag = .invalid ∧ source = some s.retained)) →
    let l := { (s.link i).exchangeOver with
      input := .stale, receiving := (s.link i).receiving || Config.cardSending s.choices i }
    ∃ t : State, exec c s = .next t
      ∧ t.slotPower i = s.slotPower i
      ∧ ((s.ctx i).missCount < 2 →
          t.ctx i = { s.ctx i with missCount := (s.ctx i).missCount + 1, goodRun := 0 }
          ∧ (t.map i).output = .live v ∧ (t.map i).input = .live w
          ∧ ∃ outputs : Bytes, t.link i = l.exchanges flag outputs
            ∧ (source = none → outputs = (s.link i).lastOutputs.getD (List.replicate (s.ctx i).co 0))
            ∧ (∀ image, source = some image → outputs.length = (s.ctx i).co
                ∧ ∀ k, k < (s.ctx i).co → outputs.getD k 0
                    = outputByte image s.trunk.outLength v.offset (((s.map i).tables.map TableCopy.outTable).getD []) k))
      ∧ (2 ≤ (s.ctx i).missCount →
          t.ctx i = { s.ctx i with
            state := .draining, reason := some .linkLost, missCount := 3, goodRun := 0, attempts := min 3 ((s.ctx i).attempts + 1) }
          ∧ t.link i = { l with lost := true }
          ∧ (t.map i).output = .retiring v ∧ (t.map i).input = .retiring w)

/-- R144, R17, R24, R70, R71, R149: a bad cycle frame sets the rejected field and leaves the mode, both timers, the last good cycle
number and the retained image; it changes no context, window or power of a slot that has no exchange in flight, starts a HOLD exchange
with the last outputs for each RUNNING or DRAINING slot when P is not 0, and builds a REJECTED return frame that reports the state it
leaves. The exchange in flight of a DRAINING slot is a miss: the third sets the lost mark, attempts and cause standing, and below the
third the HOLD exchange follows while the switch is ON, the link UP and the mark clear (of a RUNNING slot: ExchangeStartsConcludeTheLast).
Whether the card is still sending then is a free value (log entry 31). -/
def Obligations.BadFrameIsRejected : Prop :=
  ∀ (s : State) (frame : Bytes), IsBadCycleFrame (frame.take 1454) s.trunk.outLength →
    ∃ t : State, exec (.cycleFrame frame) s = .next t
      ∧ (∃ f : ReturnFrame, f.mode = s.trunk.mode ∧ f.rejected = true ∧ f.cycle = s.trunk.lastCycle ∧ Reports f t
        ∧ t.trunk = { s.trunk with
          rejected := true
          transmitter := if s.trunk.transmitter = .free then .sendingReturn f else s.trunk.transmitter
          waiting := if s.trunk.transmitter = .free then none else some f })
      ∧ t.retained = s.retained ∧ t.requests = s.requests ∧ t.power = s.power ∧ t.store = s.store ∧ t.events = s.events
      ∧ (∀ i, t.slotPower i = s.slotPower i ∧ t.expected i = s.expected i)
      ∧ (∀ i, (s.link i).exchange = none ∨ s.trunk.period = 0 →
          t.ctx i = s.ctx i ∧ (t.map i).output = (s.map i).output ∧ (t.map i).input = (s.map i).input)
      ∧ (s.trunk.period = 0 → ∀ i, t.link i = s.link i)
      ∧ (∀ i, s.trunk.period ≠ 0 → (s.ctx i).state ∈ [.running, .draining] → (s.slotPower i).switchOn = true →
          (s.link i).link = .up → (s.link i).lost = false → (s.link i).exchange = none →
          t.link i = (s.link i).exchanges .hold ((s.link i).lastOutputs.getD (List.replicate (s.ctx i).co 0)))
      ∧ ∀ i, s.trunk.period ≠ 0 → (s.ctx i).state = .draining → (s.link i).exchange ≠ none →
          let l := { (s.link i).exchangeOver with
            input := .stale, receiving := (s.link i).receiving || Config.cardSending s.choices i }
          let serves := (s.slotPower i).switchOn = true ∧ (s.link i).link = .up ∧ (s.link i).lost = false
          t.ctx i = { s.ctx i with missCount := min 3 ((s.ctx i).missCount + 1), goodRun := 0 }
          ∧ (t.map i).output = (s.map i).output ∧ (t.map i).input = (s.map i).input
          ∧ (2 ≤ (s.ctx i).missCount → t.link i = { l with lost := true })
          ∧ ((s.ctx i).missCount < 2 → serves →
              t.link i = l.exchanges .hold ((s.link i).lastOutputs.getD (List.replicate (s.ctx i).co 0)))
          ∧ ((s.ctx i).missCount < 2 → ¬ serves → t.link i = l)

/-- R146, R147: the expiry of the cycle-loss timer makes the mode CYCLE_LOST, posts CYCLE_STATE and starts the ticks when P is not
0. A local tick builds no return frame and changes nothing at the trunk; a RUNNING slot starts an INVALID exchange with outputs
built from the retained image, and ARMED windows stay ARMED. That both do nothing with their timers stopped is the model's choice (log
entry 8). -/
def Obligations.TrunkTimersExpire : Prop :=
  ∀ s : State,
    (s.trunk.lossTimer = none → exec .cycleLossTimerExpiry s = .next s)
    ∧ (s.trunk.lossTimer ≠ none → exec .cycleLossTimerExpiry s = .next (post none (.cycleState s.trunk.mode .cycleLost)
        { s with trunk := { s.trunk with
            mode := .cycleLost, lossTimer := none
            tickTimer := if s.trunk.period = 0 then none else some (s.trunk.period * 1000) } }))
    ∧ (s.trunk.tickTimer = none → exec .localTick s = .next s)
    ∧ (s.trunk.tickTimer ≠ none → ∃ t : State, exec .localTick s = .next t
        ∧ t.trunk = s.trunk ∧ t.retained = s.retained ∧ t.requests = s.requests
        ∧ (PowerOk s → MapOk s → ∀ i,
            ((s.ctx i).state = .admitPending → t.slot i = s.slot i)
            ∧ ((s.ctx i).state = .running → (s.link i).link = .up → (s.link i).lost = false → (s.link i).exchange = none →
                ∃ outputs : Bytes, outputs.length = (s.ctx i).co
                  ∧ (∀ k, k < (s.ctx i).co → outputs.getD k 0
                      = outputByte s.retained s.trunk.outLength (s.map i).output.span.offset
                          (((s.map i).tables.map TableCopy.outTable).getD []) k)
                  ∧ t.ctx i = s.ctx i ∧ t.map i = s.map i ∧ t.link i = (s.link i).exchanges .invalid outputs)))

/-- R25, R165, R26, R28, R35, R14, R160, R167: at a mark or a tick every RETIRING window becomes VACANT. Of a slot that is not DRAINING,
as after a SLOT_RESTART, nothing else changes. Every READY context without hold then makes its admission check again; where no
window was RETIRING none does. A drain ends by its cause: PRESENCE_LOST in EMPTY, and with a card that has been pushed back in meanwhile
in SETTLING, its debouncer RISING with 10 ms; COMMAND in STOPPING, with STOP asked, while the switch is on and the link is UP and not
lost, and otherwise in WITHDRAWN; FAULT in FAULTED with the record written before; LINK_LOST in LINK_TRAINING when the recover flag is
set and attempts are below 3, and otherwise in FAULTED. Choices and deductions of the model: the miss that the mark or tick concludes
counts before the windows become VACANT (log entry 28); the re-checks come once, after all window changes (24); the end of a drain with
cause FAULT gives up what is left, and a fault recorded at the end of a drain with cause LINK_LOST names RUNNING as the state at fault,
ATTEMPTS_EXHAUSTED as well (17). -/
def Obligations.DrainsCompleteAtMarksAndTicks : Prop :=
  ∀ (s : State) (c : Instr), PowerOk s → MapOk s →
    ((∃ flags number image, number < 4294967296 ∧ image.length ≤ 1440 ∧ image.length = s.trunk.outLength
          ∧ c = .cycleFrame (cycleFrameBytes flags number image))
      ∨ (s.trunk.tickTimer ≠ none ∧ c = .localTick)) →
    let retiring := fun i => (s.map i).input.isRetiring = true
    let waits := fun i => (s.ctx i).state = .ready ∧ (s.ctx i).hold = false
    ∃ t : State, exec c s = .next t
      ∧ (∀ i, retiring i →
          (t.map i).output = .vacant ∧ (t.map i).input = .vacant ∧ (t.map i).tables = none ∧ (t.map i).latest = none)
      ∧ (∀ i, retiring i → (s.ctx i).state ≠ .draining → ¬ waits i → (∀ e ∈ s.power.queue, e.slot ≠ i) →
          t.ctx i = s.ctx i ∧ t.slotPower i = s.slotPower i ∧ t.link i = s.link i)
      ∧ (∀ i, waits i → t.slotPower i = s.slotPower i
          ∧ ((∃ k, retiring k) → Rechecks i s t)
          ∧ ((∀ k, ¬ retiring k) → t.ctx i = s.ctx i ∧ t.link i = s.link i))
      ∧ ∀ i, (s.ctx i).state = .draining →
        let x := s.ctx i
        let p := s.slotPower i
        let missed := (s.link i).exchange ≠ none
        let lost := (s.link i).lost = true ∨ (missed ∧ 2 ≤ x.missCount)
        let y := { x with
          missCount := if missed then min 3 (x.missCount + 1) else x.missCount
          goodRun := if missed then 0 else x.goodRun }
        let recovers := ∃ r, s.expected i = some r ∧ r.recover = true
        let posts := fun (body : EventBody) =>
          { slot := some i, cycle := t.trunk.lastCycle, body := body } ∈ t.events.events.drop s.events.events.length
            ∨ t.events.lost = true
        (x.reason = some .presenceLost →
            (t.link i).link = .down ∧ posts (.milestone .empty none none none)
            ∧ (p.line = false ∨ p.debouncer ≠ .absent → t.ctx i = x.emptied ∧ t.slotPower i = p.off)
            ∧ (p.line = true → p.debouncer = .absent →
              t.ctx i = { x.emptied with state := .settling }
              ∧ t.slotPower i = { p.off with
                  debouncer := .rising 10000000, presentTimer := some 10000000, absentTimer := none }))
        ∧ (x.reason = some .command →
            (p.switchOn = true → (s.link i).link = .up → ¬ lost →
              t.ctx i = { y with state := .stopping } ∧ (t.slotPower i).switchOn = true
                ∧ ((∃ n, (t.link i).pipe = .waiting .stop n false) ∨ (t.link i).next = some (.request .stop)))
            ∧ (p.switchOn = false ∨ (s.link i).link ≠ .up ∨ lost →
              t.ctx i = y.withdrawn .command ∧ (t.slotPower i).switchOn = false ∧ (t.link i).link = .down
                ∧ posts (.milestone .withdrawn (some .command) none none)))
        ∧ (x.reason = some .fault →
            t.ctx i = { y.released with state := .faulted, reason := none } ∧ (t.slotPower i).switchOn = false
              ∧ (t.link i).link = .down ∧ posts (.milestone .faulted none none (x.fault.map fun f => (f.kind, f.detail))))
        ∧ (x.reason = some .linkLost →
            (recovers → x.attempts < 3 →
              t.ctx i = { y with
                state := .linkTraining, reason := none, identity := none, result := none, layout := none, rateCode := 0
                heldDraw := min x.heldDraw 150, pinned := none, progress := none, walk := none, download := none }
              ∧ (t.slotPower i).switchOn = true ∧ (t.link i).link = .training ∧ (t.link i).training = some (.base, 0))
            ∧ (recovers → ¬ x.attempts < 3 →
              t.ctx i = y.faulted { kind := .attemptsExhausted, stateAt := .running, detail := 6, attempts := x.attempts }
              ∧ (t.slotPower i).switchOn = false ∧ posts (.milestone .faulted none none (some (.attemptsExhausted, 6))))
            ∧ (¬ recovers →
              t.ctx i = y.faulted { kind := .linkLost, stateAt := .running, detail := 0, attempts := x.attempts }
              ∧ (t.slotPower i).switchOn = false ∧ posts (.milestone .faulted none none (some (.linkLost, 0)))))

/-- R140, R182, R192: when the gap is over the transmitter takes a waiting return frame first, and otherwise the response built
earliest, the head entry's or the oldest BUSY answer. A return frame that has been sent lowers the moderation counter and is followed
by a gap of 1,200 ns. -/
def Obligations.TransmitterSendsReturnFramesFirst : Prop :=
  ∀ (s : State) (gap : Nat),
    (s.trunk.transmitter = .gap gap →
      (∀ f, s.trunk.waiting = some f → exec .transmitterFree s
        = .next { s with trunk := { s.trunk with transmitter := .sendingReturn f, waiting := none } })
      ∧ (s.trunk.waiting = none →
          (∀ e rest r, s.requests.queue = e :: rest → (e.state = .answered r ∨ e.state = .discarded r) →
            (∀ b, s.requests.holding.head? = some b → r.built ≤ b.built) → exec .transmitterFree s
              = .next { s with trunk := { s.trunk with transmitter := .sendingHead } })
          ∧ (∀ b rest, s.requests.holding = b :: rest →
            (∀ e r, s.requests.queue.head? = some e → (e.state = .answered r ∨ e.state = .discarded r) → b.built < r.built) →
            exec .transmitterFree s = .next { s with trunk := { s.trunk with transmitter := .sendingBusy } })
          ∧ (s.requests.queue = [] → s.requests.holding = [] → exec .transmitterFree s
              = .next { s with trunk := { s.trunk with transmitter := .free } })))
    ∧ (∀ f, s.trunk.transmitter = .sendingReturn f → exec .returnFrameSent s
        = .next { s with trunk := { s.trunk with transmitter := .gap 1200 }
                         events := { s.events with moderation := s.events.moderation - 1 } })

/-- R177, R182: when the last byte of the head entry's response has left, the entry leaves the queue, the gap begins, and the next
entry, if it is WAITING, is executed then, with the effect and the answer it has when it arrives at an empty queue; a DISCARDED one
is not executed. A SEG_RESET refused for its target or its length is such an entry: it has no effect and discards nothing behind it
(R185; one that is carried out is SegResetDiscardsWhatWaitsBehind). When a BUSY answer has left, it leaves the holding area. -/
def Obligations.ResponseSentExecutesTheNext : Prop :=
  ∀ s : State,
    (∀ e₀, s.trunk.transmitter = .sendingHead → s.requests.queue = [e₀] → exec .serviceResponseSent s
      = .next { s with requests := { s.requests with queue := [] }, trunk := { s.trunk with transmitter := .gap 1200 } })
    ∧ (∀ e₀ e rest r, s.trunk.transmitter = .sendingHead → s.requests.queue = e₀ :: e :: rest → e.state = .discarded r →
      exec .serviceResponseSent s
        = .next { s with requests := { s.requests with queue := e :: rest }, trunk := { s.trunk with transmitter := .gap 1200 } })
    ∧ (∀ e₀ e rest, s.trunk.transmitter = .sendingHead → s.requests.queue = e₀ :: e :: rest → e.state = .waiting →
      ¬ (e.request.code = 5 ∧ e.request.target = 255 ∧ e.request.length = 0 ∧ e.request.payload = []) →
      let u : State := { s with requests := { s.requests with queue := [] }, trunk := { s.trunk with transmitter := .gap 1200 } }
      ∃ (t : State) (a : Answer), exec e.request.command u = .next (t.answered e.request a)
        ∧ exec .serviceResponseSent s = .next { t with
            requests := { s.requests with
              queue := { e with state := .answered { tag := e.request.tag, code := e.request.code, target := e.request.target
                                                     answer := a, built := s.requests.built } } :: rest
              built := s.requests.built + 1 } })
    ∧ (s.trunk.transmitter = .sendingBusy → exec .serviceResponseSent s
        = .next { s with requests := { s.requests with holding := s.requests.holding.tail }
                         trunk := { s.trunk with transmitter := .gap 1200 } })

/-! ### Presence and power -/

/-- R33, R34, R6: what a presence line that asserts or drops does in each debouncer state: an assertion in ABSENT with the context EMPTY
starts the 10 ms debounce and takes the context to SETTLING; in RISING the present timer starts over; a drop in RISING or PRESENT
starts the 2 ms absent timer. A level the line already has is no change. -/
def Obligations.PresenceLineChanges : Prop :=
  ∀ (s : State) (i : SlotIx), let x := s.slot i; let p := x.power
    (p.line = true → exec (.presenceLineAssert i) s = .next s)
    ∧ (p.line = false → p.debouncer = .absent → x.ctx.state = .empty → exec (.presenceLineAssert i) s = .next (s.setSlot i
        { x with
          ctx := { x.ctx with state := .settling, reason := none }
          power := { p with line := true, debouncer := .rising 10000000, presentTimer := some 10000000, absentTimer := none } }))
    ∧ (p.line = false → p.debouncer = .absent → x.ctx.state ≠ .empty → exec (.presenceLineAssert i) s
        = .next (s.setSlot i { x with power := { p with line := true } }))
    ∧ (∀ interval, p.line = false → p.debouncer = .rising interval → exec (.presenceLineAssert i) s
        = .next (s.setSlot i { x with power := { p with line := true, presentTimer := some interval, absentTimer := none } }))
    ∧ (p.line = false → p.debouncer = .present → exec (.presenceLineAssert i) s
        = .next (s.setSlot i { x with power := { p with line := true, absentTimer := none } }))
    ∧ (p.line = false → exec (.presenceLineDrop i) s = .next s)
    ∧ (p.line = true → p.debouncer = .absent → exec (.presenceLineDrop i) s
        = .next (s.setSlot i { x with power := { p with line := false } }))
    ∧ (p.line = true → p.debouncer ≠ .absent → exec (.presenceLineDrop i) s
        = .next (s.setSlot i { x with power := { p with line := false, presentTimer := none, absentTimer := some 2000000 } }))

/-- R34, R6, R45: the present timer takes the debouncer to PRESENT; in SETTLING a disabled record withdraws the slot, and otherwise it
enters STANDBY_WAIT with a STANDBY entry of 150 mA behind the others, and a pass is made. In every other state nothing follows. -/
def Obligations.PresentCardJoinsTheQueue : Prop :=
  ∀ (s : State) (i : SlotIx), (s.slotPower i).presentTimer ≠ none →
    let x := s.slot i
    let power := { x.power with debouncer := .present, presentTimer := none }
    let priority := ((s.expected i).map ExpRecord.priority).getD .normal
    (x.ctx.state ≠ .settling → exec (.presentTimerExpiry i) s = .next (s.setSlot i { x with power := power }))
    ∧ (x.ctx.state = .settling → (∃ r, s.expected i = some r ∧ r.enabled = false) → exec (.presentTimerExpiry i) s
        = .next (post (some i) (.milestone .withdrawn (some .disabled) none none)
            (s.setSlot i { x with power := power, ctx := { x.ctx with state := .withdrawn, reason := some .disabled } })))
    ∧ (x.ctx.state = .settling → (∀ r, s.expected i = some r → r.enabled = true) → exec (.presentTimerExpiry i) s
        = .next (pass { s.setSlot i { x with power := power, ctx := { x.ctx with state := .standbyWait, reason := none } } with
            power := { s.power with queue := s.power.queue ++
              [{ slot := i, stage := .standby, increase := 150, priority := priority, passedOver := false }] } }))

/-- R34, R27, R24: the absent timer takes the debouncer to ABSENT. A context in EMPTY stays; SETTLING and every state past it enter EMPTY,
cleared but for the hold flag, with what the slot held given up; RUNNING drains with cause PRESENCE_LOST and its windows RETIRING,
its power already off; in DRAINING the cause becomes PRESENCE_LOST, and what the slot held is given up if the switch is ON. Windows that
were ARMED start the re-checks of R160 (Rechecked). -/
def Obligations.AbsentCardEmptiesTheSlot : Prop :=
  ∀ (s : State) (i : SlotIx), PowerOk s → MapOk s → (s.slotPower i).absentTimer ≠ none → (s.slotPower i).line = false →
    let x := s.slot i
    let u := s.setSlot i { x with power := { x.power with debouncer := .absent, absentTimer := none } }
    ∃ t : State, exec (.absentTimerExpiry i) s = .next t ∧ Rechecked i u t
      ∧ (x.ctx.state = .empty → t = u)
      ∧ (x.ctx.state = .settling → t = post (some i) (.milestone .empty none none none)
          (s.setSlot i { u.slot i with ctx := x.ctx.emptied }))
      ∧ (x.ctx.state ∉ [.empty, .settling, .running, .draining] →
          GivesUp i x.ctx.emptied u t ∧ Posted (some i) (.milestone .empty none none none) s t)
      ∧ (∀ v w, x.ctx.state = .running → x.map.output = .live v → x.map.input = .live w →
          t.ctx i = { x.ctx.released with state := .draining, reason := some .presenceLost }
          ∧ (t.map i) = { x.map with output := .retiring v, input := .retiring w }
          ∧ t.slotPower i = (u.slotPower i).off ∧ t.link i = x.link.gone ∧ Kept i u t)
      ∧ (x.ctx.state = .draining → x.power.switchOn = true →
          GivesUp i { x.ctx.released with reason := some .presenceLost } u t)
      ∧ (x.ctx.state = .draining → x.power.switchOn = false →
          t = s.setSlot i { u.slot i with ctx := { x.ctx with reason := some .presenceLost } })

/-- R38, R37, R7: power-good before the 20 ms minimum has run out is remembered, and after it completes the standby inrush at once; the
minimum running out completes it when power-good has been seen. On completion the timers stop, the allowance is freed and the
context enters LINK_TRAINING, where a base training begins, its first TRAIN at once or when a turnaround of the pair has ended. While
the switch is OFF power-good is disregarded. That INRUSH_MINIMUM_EXPIRY does nothing while the minimum timer is stopped, and POWER_GOOD
while the deadline is, is the model's choice (log entry 8). -/
def Obligations.InrushCompletesWithPowerGood : Prop :=
  ∀ (s : State) (i : SlotIx), let x := s.slot i; let p := x.power
    ((p.switchOn = false ∨ p.deadlineTimer = none) → exec (.powerGood i) s = .next s)
    ∧ (p.minimumTimer = none → exec (.inrushMinimumExpiry i) s = .next s)
    ∧ (p.switchOn = true → p.deadlineTimer ≠ none → p.minimumTimer ≠ none →
        exec (.powerGood i) s = .next (s.setSlot i { x with power := { p with goodSeen := true } }))
    ∧ (p.minimumTimer ≠ none → p.goodSeen = false →
        exec (.inrushMinimumExpiry i) s = .next (s.setSlot i { x with power := { p with minimumTimer := none } }))
    ∧ ∀ c, (c = .powerGood i ∧ p.switchOn = true ∧ p.deadlineTimer ≠ none ∧ p.minimumTimer = none)
          ∨ (c = .inrushMinimumExpiry i ∧ p.minimumTimer ≠ none ∧ p.goodSeen = true) →
        PowerOk s → x.ctx.state = .standbyInrush → x.link = { x.link.gone with turnaround := x.link.turnaround } →
        ∃ t : State, exec c s = .next t
          ∧ t.slot i = { x with
              ctx := { x.ctx with state := .linkTraining, reason := none, rateCode := 0 }
              power := { p with minimumTimer := none, deadlineTimer := none, goodSeen := false }
              link := LinkEngine.trains .base 0 { x.link with link := .training, training := some (.base, 0) } }
          ∧ t.power.owner ≠ some i ∧ Kept i s t

/-- R38, R22, R40, R37: the power-good deadline turns the switch OFF and is the definitive fault POWER_GOOD_TIMEOUT; a trip while the
switch is ON turns it OFF and is OVERCURRENT, definitive in every state from STANDBY_INRUSH to ADMIT_PENDING; in RUNNING the windows
retire and the context drains with cause FAULT; in DRAINING the fault is recorded, LINK_LOST becomes FAULT, and an exchange is
abandoned, a CYCLIC_OUT that still waits included (R70); in STOPPING the slot is WITHDRAWN with the fault recorded. A trip while the
switch is OFF does nothing. Windows that were ARMED start the re-checks of R160 (Rechecked). That the expiry of a stopped deadline does
nothing is the model's choice (log entry 8). -/
def Obligations.PowerFaultsTurnTheSwitchOff : Prop :=
  ∀ (s : State) (i : SlotIx), let x := s.slot i
    (x.power.switchOn = false → exec (.trip i) s = .next s)
    ∧ (x.power.deadlineTimer = none → exec (.powerGoodTimeout i) s = .next s)
    ∧ (PowerOk s → MapOk s →
        (x.power.deadlineTimer ≠ none → ∃ t : State, exec (.powerGoodTimeout i) s = .next t ∧ Faults i .powerGoodTimeout 0 s t)
        ∧ (x.power.switchOn = true → ∃ t : State, exec (.trip i) s = .next t ∧ Rechecked i s t
            ∧ (let f : FaultRecord := { kind := .overcurrent, stateAt := x.ctx.state, detail := 0, attempts := x.ctx.attempts }
              (x.ctx.state ∉ [.running, .draining, .stopping] → Faults i .overcurrent 0 s t)
              ∧ (∀ v w, x.ctx.state = .running → x.map.output = .live v → x.map.input = .live w →
                  t.slot i = { x with
                    ctx := { x.ctx.released with state := .draining, reason := some .fault, fault := some f }
                    power := x.power.off, link := x.link.gone
                    map := { x.map with output := .retiring v, input := .retiring w } }
                  ∧ Kept i s t)
              ∧ (x.ctx.state = .draining →
                  t.slot i = { x with
                    ctx := { x.ctx with
                      heldDraw := 0, fault := some f
                      reason := if x.ctx.reason = some .linkLost then some .fault else x.ctx.reason }
                    power := x.power.off, link := x.link.exchangeOver }
                  ∧ Kept i s t)
              ∧ (x.ctx.state = .stopping →
                  GivesUp i ({ x.ctx with fault := some f }.withdrawn .command) s t
                  ∧ Posted (some i) (.milestone .withdrawn (some .command) none none) s t))))

/-- R39, R12, R13, R14, R129, R130, R131: the end of the run phase frees the allowance. A context whose layout names a set enters
PARAMETERIZING with progress 0 and, when the set passes the precheck, PARAM_BEGIN is asked with its length, format id, sum16 and the
packet size; a set of another format is PARAM_REFUSED with detail 65,535, one that is too long with 65,534. A context whose layout
names none enters READY, and is checked at once unless it is held or its own windows are still RETIRING, as they may be after a
SLOT_RESTART. That RUN_PHASE_TIMER_EXPIRY does nothing while the timer is stopped is the model's choice (log entry 8). -/
def Obligations.RunPhaseEndsTheInrush : Prop :=
  ∀ (s : State) (i : SlotIx), let x := s.slot i; let p := { x.power with runPhaseTimer := none }
    (x.power.runPhaseTimer = none → exec (.runPhaseTimerExpiry i) s = .next s)
    ∧ (x.power.runPhaseTimer ≠ none → PowerOk s → MapOk s →
        ∀ c l, x.ctx.identity = some c → x.ctx.layout = some l →
        ∃ t : State, exec (.runPhaseTimerExpiry i) s = .next t ∧ t.power.owner ≠ some i
          ∧ (∀ n, l.set = some n →
              let d := s.store.set n
              let download : Download := { phase := .begin, set := n, length := d.length, format := d.format, sum16 := d.sum16
                                           packetSize := c.maxBulk }
              let y := { x.ctx with state := .parameterizing, reason := none, progress := some 0 }
              (∀ q, c.param = some q → d.format ≠ q.format →
                GivesUp i (y.faulted { kind := .paramRefused, stateAt := .parameterizing, detail := 65535
                                       attempts := x.ctx.attempts }) s t
                ∧ Posted (some i) (.milestone .faulted none none (some (.paramRefused, 65535))) s t)
              ∧ (∀ q, c.param = some q → d.format = q.format → q.maxLength < d.length →
                GivesUp i (y.faulted { kind := .paramRefused, stateAt := .parameterizing, detail := 65534
                                       attempts := x.ctx.attempts }) s t
                ∧ Posted (some i) (.milestone .faulted none none (some (.paramRefused, 65534))) s t)
              ∧ ((∀ q, c.param = some q → d.format = q.format ∧ d.length ≤ q.maxLength) →
                t.slot i = { x with
                  ctx := { y with download := some download }, power := p
                  link := x.link.asks (.paramBegin d.length d.format d.sum16 c.maxBulk) }
                ∧ Kept i s t))
          ∧ (l.set = none →
              let y := { x.ctx with state := .ready, reason := none }
              (x.ctx.hold = true ∨ x.map.input.isRetiring = true → t.slot i = { x with ctx := y, power := p } ∧ Kept i s t)
              ∧ (x.ctx.hold = false → x.map.input.isRetiring = false →
                  (s.admission i = none →
                    t.slot i = { x with ctx := { y with state := .starting }, power := p, link := x.link.asks .start })
                  ∧ (∀ r, s.admission i = some r →
                    t.slot i = { x with ctx := { y with reason := some r.reason }, power := p }
                    ∧ Posted (some i) (.admitRefused r) s t))))

/-- R46, R47, R48, R49: a pass over a queue of distinct slots with the allowance free. The entries are examined HIGH before NORMAL and,
within one priority, by arrival; those before the first that fits are passed over, and each that was not passed over before posts
BUDGET_SHORT in that order; the first that fits is granted: it leaves the queue, committed power rises by its increase and its slot
becomes the inrush owner. With the allowance held nothing happens. -/
def Obligations.PassGrantsTheFirstThatFits : Prop :=
  ∀ s : State, (s.power.owner ≠ none → pass s = s)
    ∧ (s.power.owner = none → (s.power.queue.map PowerEntry.slot).Nodup →
        let order := s.power.queue.filter (fun e => decide (e.priority = .high))
          ++ s.power.queue.filter (fun e => decide (e.priority = .normal))
        let fits := fun e : PowerEntry => s.power.committed + e.increase ≤ s.power.budget
        let short := fun (l : List PowerEntry) (b : EventBlock) =>
          (l.filter fun e => !e.passedOver).foldl (fun b e => b.append
            { slot := some e.slot, cycle := s.trunk.lastCycle
              body := .budgetShort e.stage e.increase s.power.committed s.power.budget }) b
        let marked := fun (l : List PowerEntry) => s.power.queue.map fun e => if e ∈ l then { e with passedOver := true } else e
        ((∀ e ∈ order, ¬ fits e) → pass s
          = { s with power := { s.power with queue := marked order }, events := short order s.events })
        ∧ (∀ l e m, order = l ++ e :: m → (∀ b ∈ l, ¬ fits b) → fits e →
            let t := pass s
            t.power = { s.power with
              queue := (marked l).filter fun b => decide (b.slot ≠ e.slot)
              committed := s.power.committed + e.increase, owner := some e.slot }
            ∧ t.events = short l s.events ∧ t.trunk = s.trunk ∧ t.store = s.store ∧ t.requests = s.requests
            ∧ (∀ j, j ≠ e.slot → t.slot j = s.slot j)
            ∧ (e.stage = .standby → t.slot e.slot = { s.slot e.slot with
                ctx := { s.ctx e.slot with state := .standbyInrush, reason := none, heldDraw := 150 }
                power := { s.slotPower e.slot with
                  switchOn := true, goodSeen := false, minimumTimer := some 20000000, deadlineTimer := some 50000000 } })
            ∧ (e.stage = .run → t.slot e.slot = { s.slot e.slot with
                ctx := { s.ctx e.slot with
                  state := .runInrush, reason := none
                  heldDraw := max 150 (((s.ctx e.slot).identity.map Identity.runDraw).getD 0) }
                link := (s.link e.slot).asks .enableRun })))

/-! ### The slot link: sending and training -/

/-- R52, R57, R62, R65, R70: the end of a turnaround sends what waits: the next TRAIN with the next sequence number, a new control
request with the next request number, a repeat with the same one, the packet in flight with the bytes of the pinned set, or a
CYCLIC_OUT, whose bytes become the last outputs. The end of a message starts the turnaround, and the timer of what is outstanding:
200 µs for an echo, 20 ms for an answer (2 s for PARAM_END), 20 ms for a packet. Deductions of the model (log entry 15): a message that
has been given up, or whose successor already waits, starts no timer; the end of a turnaround while a message is on the pair sends
nothing. That a stopped turnaround ends nothing, and that a message which is not sent does not end, is the model's choice (8). -/
def Obligations.LinkSendsInTurn : Prop :=
  ∀ (s : State) (i : SlotIx), let l := s.link i
    let becomes := fun (c : Instr) (l' : LinkEngine) => exec c s = .next (s.setSlot i { s.slot i with link := l' })
    let sends := fun (l' : LinkEngine) => becomes (.turnaroundExpiry i) { l' with turnaround := none, next := none }
    let ends := fun (l' : LinkEngine) => becomes (.slotLinkMessageEnd i) { l' with sending := none, turnaround := some 1000 }
    (l.turnaround = none → exec (.turnaroundExpiry i) s = .next s)
    ∧ (l.turnaround ≠ none → l.next = none ∨ l.sending ≠ none ∨ l.receiving = true →
        becomes (.turnaroundExpiry i) { l with turnaround := none })
    ∧ (l.turnaround ≠ none → l.sending = none → l.receiving = false →
        (∀ kind target, l.next = some .train → l.training = some (kind, target) → sends { l with
          seq := (l.seq + 1) % 256, sending := some (.train kind target ((l.seq + 1) % 256))
          attemptTimer := some (l.attemptTimer.getD 5000000) })
        ∧ (∀ r, l.next = some (.request r) → sends { l with
          requestNumber := (l.requestNumber + 1) % 256, pipe := .waiting r ((l.requestNumber + 1) % 256) false
          sending := some (.request ((l.requestNumber + 1) % 256) r) })
        ∧ (∀ r n again, l.next = some .again → l.pipe = .waiting r n again → sends { l with sending := some (.request n r) })
        ∧ (∀ b n, l.next = some .packet → l.bulk = some b → (s.ctx i).pinned = some n → sends { l with
          bulk := some { b with sent := true }
          sending := some (.packet b.seqBit
            ((List.range b.length).map fun k => s.store.byteOf (s.store.set n) (b.offset + k))) })
        ∧ (∀ flag bytes, l.next = some (.cyclicOut flag bytes) →
          sends { l with sending := some (.cyclicOut flag bytes), lastOutputs := some bytes }))
    ∧ (l.sending = none → exec (.slotLinkMessageEnd i) s = .next s)
    ∧ (∀ kind target seq, l.sending = some (.train kind target seq) →
        (l.link = .training → l.next = none → ends { l with echoTimer := some 200000 })
        ∧ (l.link ≠ .training ∨ l.next ≠ none → ends l))
    ∧ (∀ n r, l.sending = some (.request n r) →
        (∀ q again, l.pipe = .waiting q n again →
          ends { l with answerTimer := some (if q = .paramEnd then 2000000000 else 20000000) })
        ∧ ((∀ q again, l.pipe ≠ .waiting q n again) → ends l))
    ∧ (∀ bit bytes, l.sending = some (.packet bit bytes) →
        (∀ b, l.bulk = some b → b.backoffTimer = none → l.next = none →
          ends { l with bulk := some { b with answerTimer := some 20000000 } })
        ∧ (l.next ≠ none ∨ (∀ b, l.bulk = some b → b.backoffTimer ≠ none) → ends l))
    ∧ (∀ flag bytes, l.sending = some (.cyclicOut flag bytes) → ends l)

/-- R57, R58, R60, R8, R11, R55: a good echo raises consecutive echoes; the fourth passes the attempt: the link is UP at the target,
which becomes the rate code, the carrier watch is on; a context in LINK_TRAINING enters IDENTIFYING and reads the first 4 bytes of the
descriptor, one in RATE_TRAINING waits at hold point 1 or enters RUN_WAIT. Deductions of the model: any other message while an echo is
awaited sets consecutive echoes to 0 and ends the wait (log entry 12), and an absence of the link-alive line that already stands is
counted for 100 µs from the turning on of the watch, unless it has been reported (16). -/
def Obligations.EchoesPassTheAttempt : Prop :=
  ∀ (s : State) (i : SlotIx) (kind : TrainKind) (target : RateCode) (message : Bytes), let x := s.slot i; let l := x.link
    l.link = .training → l.training = some (kind, target) → l.echoTimer ≠ none → l.receiving = false →
    let good := ∃ number : Nat, message = linkBytes 2 number (trainBody kind target l.seq)
    let again := { l with echoTimer := none, turnaround := some 1000, next := some .train }
    let up := { l with
      link := .up, training := none, echoes := 4, attemptTimer := none, echoTimer := none, turnaround := some 1000
      next := none, watch := true
      absenceTimer := if l.watch then l.absenceTimer else if l.alive ∨ l.absenceReported then none else some 100000 }
    (good → l.echoes < 3 → exec (.trainEcho i message) s
      = .next (s.setSlot i { x with link := { again with echoes := l.echoes + 1 } }))
    ∧ (¬ good → exec (.trainEcho i message) s = .next (s.setSlot i { x with link := { again with echoes := 0 } }))
    ∧ (good → 3 ≤ l.echoes →
        (x.ctx.state = .linkTraining → exec (.trainEcho i message) s = .next (s.setSlot i { x with
          ctx := { x.ctx with state := .identifying, reason := none, rateCode := target, walk := some Walk.initial }
          link := { up with next := some (.request (.readDescriptor 0 4)) } }))
        ∧ (x.ctx.state = .rateTraining → x.ctx.hold = true → exec (.trainEcho i message) s
          = .next (s.setSlot i { x with ctx := { x.ctx with rateCode := target }, link := up }))
        ∧ (x.ctx.state = .rateTraining → x.ctx.hold = false → exec (.trainEcho i message) s
          = .next (pass { s.setSlot i { x with
                ctx := { x.ctx with state := .runWait, reason := none, rateCode := target }, link := up } with
              power := { s.power with queue := s.power.queue ++
                [{ slot := i, stage := .run, increase := max 150 ((x.ctx.identity.map Identity.runDraw).getD 0) - 150
                   priority := ((s.expected i).map ExpRecord.priority).getD .normal, passedOver := false }] } })))

/-- R57, R58, R60: the end of an echo wait sets consecutive echoes to 0 and has the next TRAIN sent. The end of the 5 ms fails the
attempt: below the third the next attempt begins at once; the third of a rate training above code 0 posts RATE_REDUCED and begins an
attempt one code lower; the third of a base training or at code 0 leaves the link FAILED, the transient fault LINK_TRAIN. That the two
expiries do nothing while their timers are stopped is the model's choice (log entry 8). -/
def Obligations.FailedAttempts : Prop :=
  ∀ (s : State) (i : SlotIx), let x := s.slot i; let l := x.link
    (l.echoTimer = none → exec (.echoWaitExpiry i) s = .next s)
    ∧ (l.echoTimer ≠ none → exec (.echoWaitExpiry i) s = .next (s.setSlot i { x with
        link := { l with echoes := 0, echoTimer := none, turnaround := some 1000, next := some .train } }))
    ∧ (l.attemptTimer = none → exec (.trainingAttemptTimeout i) s = .next s)
    ∧ (l.attemptTimer ≠ none → ∀ kind target, l.training = some (kind, target) →
        let fresh := { l with echoes := 0, attemptTimer := none, echoTimer := none, next := none }
        (l.failures < 2 → exec (.trainingAttemptTimeout i) s = .next (s.setSlot i { x with
          link := LinkEngine.trains kind target { fresh with failures := l.failures + 1 } }))
        ∧ (2 ≤ l.failures → kind = .rate → ∀ lower : RateCode, target.val = lower.val + 1 →
          exec (.trainingAttemptTimeout i) s = .next (post (some i) (.rateReduced target lower .trainFail) (s.setSlot i { x with
            link := LinkEngine.trains .rate lower { fresh with training := some (.rate, lower), failures := 0 } })))
        ∧ (2 ≤ l.failures → kind = .base ∨ target = 0 → PowerOk s → MapOk s →
          x.ctx.state ∈ [.linkTraining, .rateTraining] →
          ∃ t : State, exec (.trainingAttemptTimeout i) s = .next t ∧ TransientlyFaults i .linkTrain s t))

/-! ### The control pipe -/

/-- R63, R8, R9, R11, R12, R13, R14, R15, R59, R65, R131, R133, R162: an accepted OK answer frees the pipe and moves the bring-up on: a
READ_DESCRIPTOR as the walk says (the next read, matching, or the fault of the walk), SET_RATE to a rate training at its code,
ENABLE_RUN to the 20 ms run phase, PARAM_BEGIN to the transfer, or for an empty set to PARAM_END, PARAM_END to READY with the pin
released, and START to ARMED windows. READY, unless it is held or its own windows are still RETIRING (R14), and START make the admission
check. Matching takes the pin of the record's set and asks for
SET_RATE, or at rate code 0 has the context wait at hold point 1 or join the power-up queue (Matches). -/
def Obligations.ControlAnswersMoveTheBringUp : Prop :=
  ∀ (s : State) (i : SlotIx) (r : ControlReq) (n : Nat) (again : Bool) (data : Bytes), let x := s.slot i; let l := x.link
    let c := x.ctx
    l.link = .up → l.bulk = none → l.pipe = .waiting r n again → n < 256 → l.receiving = false → PowerOk s → MapOk s →
    let answered := exec (.controlAnswer i (linkBytes 4 n (0 :: data))) s
    let goes := fun (x' : Slot) => answered = .next (s.setSlot i x')
    (∀ offset length w, c.state = .identifying → r = .readDescriptor offset length → length ≤ 64 → data.length = length →
        c.walk = some w →
        (∀ w' o k, walkStep w data = .read w' o k → goes { x with
          ctx := { c with walk := some w' }, link := l.accepted (some (.request (.readDescriptor o k))) })
        ∧ (∀ f, walkStep w data = .failed f → ∃ t : State, answered = .next t ∧ Faults i f.kind f.detail s t)
        ∧ (∀ card e, walkStep w data = .complete card → s.expected i = some e → e.enabled = false →
            ∃ t : State, answered = .next t
              ∧ Withdraws i .disabled (s.setSlot i { x with ctx := { c with walk := none, identity := some card } }) t)
        ∧ (∀ card, walkStep w data = .complete card → (∀ e, s.expected i = some e → e.enabled = true) →
            ∃ t : State, answered = .next t
              ∧ Matches i card
                (s.setSlot i { x with ctx := { c with walk := none, identity := some card }, link := l.accepted none }) t))
    ∧ (∀ code, c.state = .rateTraining → r = .setRate code → data = [] → goes { x with
        link := { l.accepted (some .train) with
          link := .training, training := some (.rate, code), failures := 0, echoes := 0, attemptTimer := none
          echoTimer := none } })
    ∧ (c.state = .runInrush → r = .enableRun → data = [] → goes { x with
        power := { x.power with runPhaseTimer := some 20000000 }, link := l.accepted none })
    ∧ (∀ a₁ a₂ a₃ a₄ d, c.state = .parameterizing → r = .paramBegin a₁ a₂ a₃ a₄ → data = [] → c.download = some d →
        (d.length = 0 → goes { x with
          ctx := { c with download := some { d with phase := .finish } }, link := l.accepted (some (.request .paramEnd)) })
        ∧ (d.length ≠ 0 → goes { x with
          ctx := { c with download := some { d with phase := .transfer } }
          link := { l.accepted (some .packet) with
            bulk := some { total := d.length, packetSize := d.packetSize, offset := 0, length := min d.packetSize d.length
                           seqBit := false, resends := 0, sent := false, answerTimer := none, backoffTimer := none
                           waitTimer := none } } }))
    ∧ (c.state = .parameterizing → r = .paramEnd → data = [] → ∃ t : State, answered = .next t
        ∧ Unpinned c.pinned s t ∧ Kept i s t
        ∧ (let y := { c with state := .ready, reason := none, pinned := none, progress := none, download := none }
          (c.hold = true ∨ x.map.input.isRetiring = true → t.slot i = { x with ctx := y, link := l.accepted none })
          ∧ (c.hold = false → x.map.input.isRetiring = false → s.admission i = none →
              t.slot i = { x with ctx := { y with state := .starting }, link := l.accepted (some (.request .start)) })
          ∧ (∀ q, c.hold = false → x.map.input.isRetiring = false → s.admission i = some q →
              t.slot i = { x with ctx := { y with reason := some q.reason }, link := l.accepted none }
              ∧ Posted (some i) (.admitRefused q) s t)))
    ∧ (∀ y, c.state = .starting → r = .start → data = [] → c.layout = some y →
        (s.admission i = none → goes { x with
          ctx := { c with state := .admitPending, reason := none }, link := l.accepted none
          map := { x.map with
            output := .armed y.outWindow, input := .armed y.inWindow, latest := none
            tables := some { outTable := y.outTable, inTable := y.inTable, fill := y.fill } } })
        ∧ (∀ q, s.admission i = some q → answered = .next (post (some i) (.admitRefused q) (s.setSlot i { x with
            ctx := { c with state := .ready, reason := some q.reason }, link := l.accepted none }))))

/-- R59, R86, R12, R131, R133, R15: a refused SET_RATE posts RATE_REDUCED with cause REFUSED and steps one code down, at code 0 without a
message; every other refused request of the bring-up is the definitive fault of its stage with the card's reason code, that of
PARAM_BEGIN at most 65,533. -/
def Obligations.RefusalsFaultTheSlot : Prop :=
  ∀ (s : State) (i : SlotIx) (r : ControlReq) (n : Nat) (again : Bool) (c₁ c₂ : Byte), let x := s.slot i; let l := x.link
    let st := x.ctx.state
    let code := c₁.toNat * 256 + c₂.toNat
    l.link = .up → l.bulk = none → l.pipe = .waiting r n again → n < 256 → l.receiving = false → PowerOk s → MapOk s →
    let refused := exec (.controlAnswer i (linkBytes 4 n [1, c₁, c₂])) s
    (∀ kind detail,
        (st = .identifying ∧ (∃ o k, r = .readDescriptor o k) ∧ kind = .descriptorRefused ∧ detail = code)
        ∨ (st = .runInrush ∧ r = .enableRun ∧ kind = .runRefused ∧ detail = code)
        ∨ (st = .parameterizing ∧ (∃ a₁ a₂ a₃ a₄, r = .paramBegin a₁ a₂ a₃ a₄) ∧ kind = .paramRefused
            ∧ detail = min code 65533)
        ∨ (st = .parameterizing ∧ r = .paramEnd ∧ kind = .paramNotAccepted ∧ detail = code)
        ∨ (st = .starting ∧ r = .start ∧ kind = .startRefused ∧ detail = code) →
        ∃ t : State, refused = .next t ∧ Faults i kind detail s t)
    ∧ (∀ target lower : RateCode, st = .rateTraining → r = .setRate target → target.val = lower.val + 1 →
        let u := fun (x' : Slot) => post (some i) (.rateReduced target lower .refused) (s.setSlot i x')
        (lower ≠ 0 → refused = .next (u { x with link := l.accepted (some (.request (.setRate lower))) }))
        ∧ (lower = 0 → x.ctx.hold = true → refused = .next (u { x with link := l.accepted none }))
        ∧ (lower = 0 → x.ctx.hold = false →
            let v := u { x with ctx := { x.ctx with state := .runWait, reason := none }, link := l.accepted none }
            refused = .next (pass { v with
              power := { s.power with queue := s.power.queue ++
                [{ slot := i, stage := .run, increase := max 150 ((x.ctx.identity.map Identity.runDraw).getD 0) - 150
                   priority := ((s.expected i).map ExpRecord.priority).getD .normal, passedOver := false }] } })))

/-- R62, R20, R26: the first expiry of the answer timer sends the request again with the same number; the second is CTRL_TIMEOUT, a
transient fault in the stages of the bring-up that have a request outstanding and the end of the stop in STOPPING. STOP answered OK or
REFUSE ends the stop as well: the slot is WITHDRAWN with COMMAND. That the expiry of a stopped answer timer does nothing is the
model's choice (log entry 8). -/
def Obligations.TimeoutsAndTheEndOfAStop : Prop :=
  ∀ (s : State) (i : SlotIx), let x := s.slot i; let l := x.link
    (l.answerTimer = none → exec (.controlAnswerTimeout i) s = .next s)
    ∧ (∀ r n, l.answerTimer ≠ none → l.pipe = .waiting r n false →
        let repeated := { l with pipe := .waiting r n true, answerTimer := none }
        (l.turnaround = none → l.sending = none → l.receiving = false → exec (.controlAnswerTimeout i) s
          = .next (s.setSlot i { x with link := { repeated with sending := some (.request n r) } }))
        ∧ (l.turnaround ≠ none ∨ l.sending ≠ none ∨ l.receiving = true → exec (.controlAnswerTimeout i) s
          = .next (s.setSlot i { x with link := { repeated with next := some .again } })))
    ∧ (PowerOk s → MapOk s →
        (∀ r n, l.answerTimer ≠ none → l.pipe = .waiting r n true → ∃ t : State, exec (.controlAnswerTimeout i) s = .next t
            ∧ (x.ctx.state ∈ [.identifying, .rateTraining, .runInrush, .parameterizing, .starting] →
                TransientlyFaults i .ctrlTimeout s t)
            ∧ (x.ctx.state = .stopping → Withdraws i .command s t))
        ∧ (∀ n again body, x.ctx.state = .stopping → l.link = .up → l.bulk = none → l.pipe = .waiting .stop n again → n < 256 →
            l.receiving = false → (body = [0] ∨ ∃ c₁ c₂, body = [1, c₁, c₂]) →
            ∃ t : State, exec (.controlAnswer i (linkBytes 4 n body)) s = .next t ∧ Withdraws i .command s t))

/-! ### The bulk pipe -/

/-- R66, R67, R68, R69, R133: while a packet is awaited, the BULK_ACK with its bit advances the transfer, the last one to PARAM_END; a
BULK_WAIT starts the 1 ms backoff and, unless it runs, the 500 ms wait timer; a BULK_REFUSE is PARAM_STALL with the card's detail.
Everything else, and the answer timer, has the packet sent again, the fourth time BULK_TIMEOUT. The backoff sends it again; the
wait timer is PARAM_BUSY_TIMEOUT. Choices and deductions of the model: an answer whose body has another length counts as corrupt (log
entry 14); a corrupt answer is handled so under the row of BULK_ACK too (11); the expiries of stopped timers do nothing (8). -/
def Obligations.BulkAnswersMoveTheDownload : Prop :=
  ∀ (s : State) (i : SlotIx) (b : Bulk), let x := s.slot i; let l := x.link
    l.link = .up → l.bulk = some b → x.ctx.state = .parameterizing → PowerOk s → MapOk s →
    let goes := fun (c : Instr) (x' : Slot) => exec c s = .next (s.setSlot i x')
    let after := { l with turnaround := some 1000, next := some .packet }
    let ack := linkBytes 6 (if b.seqBit then 1 else 0) []
    let acked := b.offset + b.length
    let resends := fun (c : Instr) =>
      (b.resends < 3 → goes c { x with link := { after with bulk := some { b with resends := b.resends + 1, answerTimer := none } } })
      ∧ (3 ≤ b.resends → ∃ t : State, exec c s = .next t ∧ TransientlyFaults i .bulkTimeout s t)
    (b.sent = true → b.backoffTimer = none → l.receiving = false →
        (acked = b.total → goes (.bulkAck i ack) { x with
          ctx := { x.ctx with
            progress := some acked, download := x.ctx.download.map fun d => { d with phase := .finish } }
          link := { after with bulk := none, next := some (.request .paramEnd) } })
        ∧ (acked ≠ b.total → goes (.bulkAck i ack) { x with
          ctx := { x.ctx with progress := some acked }
          link := { after with
            bulk := some { b with
              offset := acked, length := min b.packetSize (b.total - acked), seqBit := !b.seqBit, resends := 0, sent := false
              answerTimer := none, waitTimer := none } } })
        ∧ (∀ number, goes (.bulkWait i (linkBytes 7 number [])) { x with
          link := { after with
            next := none
            bulk := some { b with
              resends := 0, answerTimer := none, backoffTimer := some 1000000
              waitTimer := some (b.waitTimer.getD 500000000) } } })
        ∧ (∀ number (d₁ d₂ : Byte), ∃ t : State, exec (.bulkRefuse i (linkBytes 8 number [d₁, d₂])) s = .next t
          ∧ Faults i .paramStall (d₁.toNat * 256 + d₂.toNat) s t)
        ∧ (∀ m, m ≠ ack → (∀ number, m ≠ linkBytes 7 number []) → (∀ number d₁ d₂, m ≠ linkBytes 8 number [d₁, d₂]) →
          resends (.corruptBulkAnswer i m) ∧ resends (.bulkAck i m)))
    ∧ (b.answerTimer ≠ none → resends (.bulkAnswerTimeout i))
    ∧ (b.answerTimer = none → exec (.bulkAnswerTimeout i) s = .next s)
    ∧ (b.backoffTimer ≠ none → ∀ n, x.ctx.pinned = some n →
        let fresh := { b with backoffTimer := none }
        (l.turnaround = none → l.sending = none → l.receiving = false → goes (.bulkBackoffExpiry i) { x with link := { l with
          bulk := some { fresh with sent := true }
          sending := some (.packet b.seqBit
            ((List.range b.length).map fun k => s.store.byteOf (s.store.set n) (b.offset + k))) } })
        ∧ (l.turnaround ≠ none ∨ l.sending ≠ none ∨ l.receiving = true → goes (.bulkBackoffExpiry i) { x with
          link := { l with bulk := some fresh, next := some .packet } }))
    ∧ (b.backoffTimer = none → exec (.bulkBackoffExpiry i) s = .next s)
    ∧ (b.waitTimer ≠ none → ∃ t : State, exec (.bulkWaitTimerExpiry i) s = .next t ∧ TransientlyFaults i .paramBusyTimeout s t)
    ∧ (b.waitTimer = none → exec (.bulkWaitTimerExpiry i) s = .next s)

/-! ### Messages and the link-alive line -/

/-- R52, R53, R57, R63, R71, R72: a message is taken only as the answer to what is outstanding. A CYCLIC_IN of exactly ci bytes is the
good answer to an exchange in flight: the inputs become the latest, FRESH, the miss count 0, and the good-exchange run advances to at
most 1,000, where attempts are cleared. A message is discarded, and only starts the turnaround of 1,000 ns, while the link is DOWN or
FAILED, in training with no echo awaited, with a control request outstanding that it does not answer, with a packet not yet sent or
backing off, otherwise on an UP link when it is no good input, and when it was arriving at an exchange start (R71). Choices and
deductions of the model: so it is under whichever row it comes (log entry 11), an answer is taken only after its message has left (13),
and only with the body length its form has (14). -/
def Obligations.MessagesAreTakenAsAnswers : Prop :=
  ∀ (s : State) (i : SlotIx) (m : Bytes), let x := s.slot i; let l := x.link
    let rows := [Instr.linkMessageDiscard i m, .trainEcho i m, .controlAnswer i m, .bulkAck i m, .bulkWait i m, .bulkRefuse i m,
      .corruptBulkAnswer i m, .cyclicIn i m]
    (∀ number inputs, m = linkBytes 10 number inputs → inputs.length = x.ctx.ci → inputs.length ≤ 256 → l.link = .up →
        l.bulk = none → l.pipe = .idle → l.exchange ≠ none → l.sending = none → l.next = none → l.receiving = false →
        x.ctx.state ∈ [.running, .draining] →
        exec (.cyclicIn i m) s = .next (s.setSlot i { x with
          ctx := { x.ctx with
            missCount := 0, goodRun := min 1000 (x.ctx.goodRun + 1)
            attempts := if 999 ≤ x.ctx.goodRun then 0 else x.ctx.attempts }
          map := { x.map with latest := some inputs }
          link := { l with turnaround := some 1000, input := .fresh, exchange := none } }))
    ∧ (l.receiving = false →
        (l.link = .down ∨ l.link = .failed ∨ (l.link = .training ∧ l.echoTimer = none)
        ∨ (l.link = .up ∧ (∃ b, l.bulk = some b ∧ (b.sent = false ∨ b.backoffTimer ≠ none)))
        ∨ (l.link = .up ∧ l.bulk = none ∧ ∃ r n again, l.pipe = .waiting r n again
            ∧ (∀ data, data.length = (match r with
                | .readDescriptor _ length => length
                | _ => 0) → m ≠ linkBytes 4 n (0 :: data))
            ∧ ∀ c₁ c₂, m ≠ linkBytes 4 n [1, c₁, c₂])
        ∨ (l.link = .up ∧ l.bulk = none ∧ l.pipe = .idle
            ∧ (l.exchange = none ∨ l.sending ≠ none ∨ l.next ≠ none ∨ x.ctx.state ∉ [.running, .draining]
              ∨ ∀ number inputs, inputs.length = x.ctx.ci → m ≠ linkBytes 10 number inputs))) →
      ∀ c ∈ rows, exec c s = .next (s.setSlot i { x with link := l.discards }))
    ∧ (l.receiving = true →
      ∀ c ∈ rows, exec c s = .next (s.setSlot i { x with link := { l.discards with receiving := false } }))

/-- R56, R20, R26: a link-alive line that falls is counted for 100 µs under the carrier watch, and one that returns ends the count and
the absence. The count running out reports LINK_DROP: a transient fault from IDENTIFYING to ADMIT_PENDING, the end of the stop in
STOPPING, and in every other state nothing but the mark that this absence has been reported. Windows that were ARMED start the re-checks
of R160 (Rechecked). That mark, which keeps one absence from
being reported twice, is the model's deduction (log entry 16); that a level the line already has is no change, and that LINK_DROP does
nothing while no absence is counted, is its choice (8). -/
def Obligations.LinkAliveAndLinkDrop : Prop :=
  ∀ (s : State) (i : SlotIx), let x := s.slot i; let l := x.link
    (∀ present, l.alive = present → exec (.linkAliveChange i present) s = .next s)
    ∧ (l.alive = false → exec (.linkAliveChange i true) s
        = .next (s.setSlot i { x with link := { l with alive := true, absenceTimer := none, absenceReported := false } }))
    ∧ (l.alive = true → exec (.linkAliveChange i false) s
        = .next (s.setSlot i { x with
            link := { l with alive := false, absenceTimer := if l.watch then some 100000 else none } }))
    ∧ (l.absenceTimer = none → exec (.linkDrop i) s = .next s)
    ∧ (l.absenceTimer ≠ none → PowerOk s → MapOk s →
        let u := s.setSlot i { x with link := { l with absenceTimer := none, absenceReported := true } }
        let transient := x.ctx.state ∈ [.identifying, .parked, .rateTraining, .runWait, .runInrush, .parameterizing, .ready,
          .starting, .admitPending]
        ∃ t : State, exec (.linkDrop i) s = .next t ∧ Rechecked i u t
          ∧ (transient → TransientlyFaults i .linkDrop u t)
          ∧ (x.ctx.state = .stopping → Withdraws i .command u t)
          ∧ (¬ transient → x.ctx.state ≠ .stopping → t = u))

/-! ### Identification, matching and images -/

/-- R83, R85, R87: what the walk does with the four bytes of a header: the six checks in order, each with its fault and detail; then
the first piece of the body of a known kind, and past an unknown kind what follows a block. R84: the body is read in pieces of at most
64 bytes, each behind the last, and a whole body is decoded by its kind (R77 to R81): a bulk payload below 16 is BLOCK_SHORT, a rate
code above 3 counts as 3 and a payload above 256 as 256; a LAYOUT body is checked for its count, its length, each entry in turn and the
two totals (LAYOUT_BAD, sub-causes 1 to 6). R85, R88, R89: what follows a block is the next header, the first mandatory kind missing,
or the identity record (Walk.GoesOn, Identity.Gathers). -/
def Obligations.WalkChecksEachHeader : Prop :=
  (∀ (w : Walk) (b₀ b₁ b₂ b₃ : Byte), w.stage = .header →
    let kind := b₀.toNat
    let length := b₁.toNat
    let next := b₂.toNat * 256 + b₃.toNat
    let known := 1 ≤ kind ∧ kind ≤ 5
    let seen := ∃ k, blockKind kind = some k ∧ k ∈ w.kinds
    let fails := fun (f : FaultKind) (detail : Nat) => walkStep w [b₀, b₁, b₂, b₃] = .failed { kind := f, detail := detail }
    let order := w.number = 1 ∧ kind ≠ 1
    let range := 252 < length ∨ 1024 < w.offset + 4 + length
    let badNext := next ≠ 0 ∧ (next % 4 ≠ 0 ∨ 1024 ≤ next)
    let tooLong := next ≠ 0 ∧ w.number = 16
    let short := known ∧ length < [0, 10, 4, 3, 5, 4].getD kind 0
    (order → fails .chainOrder kind)
    ∧ (¬ order → range → fails .chainRange w.offset)
    ∧ (¬ order → ¬ range → seen → fails .chainDup w.offset)
    ∧ (¬ order → ¬ range → ¬ seen → badNext → fails .chainRange next)
    ∧ (¬ order → ¬ range → ¬ seen → ¬ badNext → tooLong → fails .chainLong w.offset)
    ∧ (¬ order → ¬ range → ¬ seen → ¬ badNext → ¬ tooLong → short → fails .blockShort w.offset)
    ∧ (¬ order → ¬ range → ¬ seen → ¬ badNext → ¬ tooLong → ¬ short →
        (∀ k, blockKind kind = some k → walkStep w [b₀, b₁, b₂, b₃] = .read
          { w with stage := .body [], header := some { kind := kind, bodyLength := length, next := next }, kinds := w.kinds ++ [k] }
          (w.offset + 4) (min 64 length))
        ∧ (¬ known → w.GoesOn w.fields next (walkStep w [b₀, b₁, b₂, b₃]))))
  ∧ ∀ (w : Walk) (h : BlockHeader) (gathered bytes : Bytes), w.stage = .body gathered → w.header = some h →
    let body := gathered ++ bytes
    let result := walkStep w bytes
    let fails := fun (f : FaultKind) (detail : Nat) => result = .failed { kind := f, detail := detail }
    let goesOn := fun (fields : Gathered) => w.GoesOn fields h.next result
    (body.length < h.bodyLength → result = .read { w with stage := .body body } (w.offset + 4 + body.length)
      (min 64 (h.bodyLength - body.length)))
    ∧ (h.bodyLength ≤ body.length →
        (h.kind = 1 → goesOn { w.fields with
          ident := some { vendor := numAt16 body 0, cardType := numAt16 body 2
                          revision := { major := byteAt body 4, minor := byteAt body 5 }, serial := numAt32 body 6 } })
        ∧ (h.kind = 2 → goesOn { w.fields with supply := some (numAt16 body 0, numAt16 body 2) })
        ∧ (h.kind = 3 → numAt16 body 1 < 16 → fails .blockShort w.offset)
        ∧ (h.kind = 3 → 16 ≤ numAt16 body 1 → ∀ code : RateCode, code.val = min (byteAt body 0) 3 →
          goesOn { w.fields with link := some (code, min (numAt16 body 1) 256) })
        ∧ (h.kind = 4 →
          let count := byteAt body 4
          let entry := fun j => ({ position := byteAt body (5 + 5 * j), type := numAt16 body (6 + 5 * j)
                                   outBytes := byteAt body (8 + 5 * j), inBytes := byteAt body (9 + 5 * j) } : LayoutEntry)
          let entries := (List.range count).map entry
          let repeated := fun j => ∃ k, k < j ∧ (entry k).position = (entry j).position
          let large := fun j => 64 < (entry j).outBytes ∨ 64 < (entry j).inBytes
          let good := fun j => (entry j).position ≤ 7 ∧ ¬ repeated j ∧ ¬ large j
          let outTotal := numAt16 body 0 + (entries.map LayoutEntry.outBytes).sum
          let inTotal := numAt16 body 2 + (entries.map LayoutEntry.inBytes).sum
          (8 < count → fails .layoutBad 1)
          ∧ (count ≤ 8 → body.length < 5 + 5 * count → fails .blockShort w.offset)
          ∧ (count ≤ 8 → 5 + 5 * count ≤ body.length →
            (∀ j, j < count → (∀ k, k < j → good k) →
              (7 < (entry j).position → fails .layoutBad 2)
              ∧ ((entry j).position ≤ 7 → repeated j → fails .layoutBad 3)
              ∧ ((entry j).position ≤ 7 → ¬ repeated j → large j → fails .layoutBad 4))
            ∧ ((∀ j, j < count → good j) →
              (256 < outTotal → fails .layoutBad 5)
              ∧ (outTotal ≤ 256 → 256 < inTotal → fails .layoutBad 6)
              ∧ (outTotal ≤ 256 → inTotal ≤ 256 → goesOn { w.fields with
                  layout := some { baseOut := numAt16 body 0, baseIn := numAt16 body 2, entries := entries } }))))
        ∧ (h.kind = 5 → goesOn { w.fields with param := some { format := numAt16 body 0, maxLength := numAt16 body 2 } }))

/-- R92, R102: the candidate is exact when the card fits the primary identity, and otherwise the first substitute it fits; a card that
fits none is a MISMATCH with IDENTITY. A card fits an identity when vendor and card type are equal and its revision lies in the range,
by major, then minor. The candidate is then judged in the order of R103 to R106: base bytes (SIZE), the sub-modules in position order
(SUBMOD, with the position of the first mismatch), the run draw (POWER), and the set. The number of adaptations that goes with a
result is R112's, of those found before matching ended (DEDUCED, log entry 3): 0 without a record, for IDENTITY and for an exact
candidate's SIZE; the base fill on output for a substitute's SIZE; the base fills and the absent sub-modules before the mismatch for
SUBMOD; and all of them for POWER and past it. -/
def Obligations.MatchingJudgesTheCandidate : Prop :=
  ∀ (closed : SetIx → Bool) (c : Identity) (r : ExpRecord),
    let fits := fun (x : CardSpec) => c.vendor = x.vendor ∧ c.cardType = x.cardType
      ∧ (x.minRev.major < c.revision.major ∨ (x.minRev.major = c.revision.major ∧ x.minRev.minor ≤ c.revision.minor))
      ∧ (c.revision.major < x.maxRev.major ∨ (c.revision.major = x.maxRev.major ∧ c.revision.minor ≤ x.maxRev.minor))
    let chosen := fun (k : Option Nat) => match k with
      | none => fits r.primary
      | some n => ¬ fits r.primary ∧ (∃ x, r.substitutes[n]? = some x ∧ fits x)
          ∧ ∀ (m : Nat) (y : CardSpec), m < n → r.substitutes[m]? = some y → ¬ fits y
    let size := fun (k : Option Nat) => match k with
      | none => c.baseOut = r.baseOut ∧ c.baseIn = r.baseIn
      | some _ => c.baseOut ≤ r.baseOut ∧ c.baseIn ≤ r.baseIn
    let met := fun (e : ExpSub) => match c.subs.find? (fun m => decide (m.position = e.position)) with
      | some m => m.type = e.type ∧ m.outBytes = e.outBytes ∧ m.inBytes = e.inBytes
      | none => e.required = false
    let mismatch := fun (sub : SubReason) (k position : Option Nat) (number : Nat) => matchCard closed c (some r)
      = .parked .mismatch { cls := .mismatch, sub := some sub, substitute := k } position .none number
    let fill := fun (card expected : Nat) => if card < expected then 1 else 0
    let absent := fun (subs : List ExpSub) => (subs.filter fun e => !c.subs.any fun m => decide (m.position = e.position)).length
    let count := fill c.baseOut r.baseOut + fill c.baseIn r.baseIn + absent r.subs
      + (c.subs.filter fun m => !r.subs.any fun e => decide (e.position = m.position)).length
    (∀ x, c.fits x = true ↔ fits x)
    ∧ matchCard closed c none = .parked .unexpected { cls := .unexpected, sub := none, substitute := none } none .none 0
    ∧ (¬ fits r.primary → (∀ x ∈ r.substitutes, ¬ fits x) → mismatch .identity none none 0)
    ∧ ∀ k, chosen k →
        (¬ size k → mismatch .size k none (if k = none then 0 else fill c.baseOut r.baseOut))
        ∧ (size k → ∀ pre e rest, r.subs = pre ++ e :: rest → (∀ b ∈ pre, met b) → ¬ met e →
            mismatch .submod k (some e.position) (fill c.baseOut r.baseOut + fill c.baseIn r.baseIn + absent pre))
        ∧ (size k → (∀ e ∈ r.subs, met e) → r.drawCap < c.runDraw → mismatch .power k none count)
        ∧ (size k → (∀ e ∈ r.subs, met e) → c.runDraw ≤ r.drawCap →
            let cls := if k = none ∧ count = 0 then MatchClass.exact else .compatible
            let result : MatchResult := { cls := cls, sub := none, substitute := k }
            (∀ n, r.set = some n → closed n = false →
              matchCard closed c (some r) = .parked .setUnavailable result none (.unavailable n) count)
            ∧ ((∀ n, r.set = some n → closed n = true) → ∃ (layout : Layout) (rate : RateCode),
                matchCard closed c (some r) = .forward result layout rate count
                ∧ rate.val = min c.maxRate.val r.rateCap.val
                ∧ layout.outWindow = { offset := r.outOffset, length := r.baseOut + (r.subs.map ExpSub.outBytes).sum }
                ∧ layout.inWindow = { offset := r.inOffset, length := r.baseIn + (r.subs.map ExpSub.inBytes).sum }
                ∧ layout.fill = r.fill ∧ layout.set = r.set ∧ (layout.adapted = true ↔ cls = .compatible)
                ∧ layout.outTable = outTable c r ∧ layout.inTable = inTable c r))

/-- R89, R93, R109, R110, R169, R171: for a card whose sub-modules stand in position order and meet the record, the tables move base
bytes to base bytes and each sub-module's bytes between its place in the card image and its place in the window. Card output bytes
no expected sub-module names are zeros; window input bytes of a base fill or of an absent sub-module are zeros, and so is every byte
when no inputs are carried. -/
def Obligations.TablesMoveEachSubModule : Prop :=
  ∀ (c : Identity) (r : ExpRecord) (entries : List LayoutEntry),
    c.subs = placeSubs c.baseOut c.baseIn entries → (entries.map LayoutEntry.position).Pairwise (· < ·) →
    (r.subs.map ExpSub.position).Pairwise (· < ·) → c.baseOut ≤ r.baseOut → c.baseIn ≤ r.baseIn →
    (∀ e ∈ r.subs, ∀ m ∈ c.subs, m.position = e.position → m.outBytes = e.outBytes ∧ m.inBytes = e.inBytes) →
    (∀ (source : Bytes) (outLength offset : Nat),
      let card := outputByte source outLength offset (outTable c r)
      let image := fun k => if offset + k < outLength then source.getD (offset + k) 0 else 0
      (∀ k, k < c.baseOut → card k = image k)
      ∧ (∀ pre e rest m k, r.subs = pre ++ e :: rest → m ∈ c.subs → m.position = e.position → k < m.outBytes →
          card (m.outOffset + k) = image (r.baseOut + (pre.map ExpSub.outBytes).sum + k))
      ∧ (∀ m ∈ c.subs, ∀ k, (∀ e ∈ r.subs, e.position ≠ m.position) → k < m.outBytes → card (m.outOffset + k) = 0))
    ∧ (∀ inputs : Bytes,
        let window := segmentByte (inTable c r) (some inputs)
        (∀ k, k < c.baseIn → window k = inputs.getD k 0)
        ∧ (∀ k, c.baseIn ≤ k → k < r.baseIn → window k = 0)
        ∧ (∀ pre e rest k, r.subs = pre ++ e :: rest → k < e.inBytes →
            (∀ m ∈ c.subs, m.position = e.position →
              window (r.baseIn + (pre.map ExpSub.inBytes).sum + k) = inputs.getD (m.inOffset + k) 0)
            ∧ ((∀ m ∈ c.subs, m.position ≠ e.position) → window (r.baseIn + (pre.map ExpSub.inBytes).sum + k) = 0)))
    ∧ (∀ pre m rest, c.subs = pre ++ m :: rest →
        m.outOffset = c.baseOut + (pre.map SubModule.outBytes).sum ∧ m.inOffset = c.baseIn + (pre.map SubModule.inBytes).sum)
    ∧ ∀ k, segmentByte (inTable c r) none k = 0

/-- R95, R202: the EXP_LOAD layout of a record whose fields are in range has the length its counts imply and no field out of range, and
is read back as the same record. -/
def Obligations.RecordsReadBackAsSent : Prop :=
  ∀ r : ExpRecord, r.InRange →
    loadRecord r.bytes = r ∧ RequestName.expLoad.acceptsLength r.bytes ∧ r.bytes.length ≤ 107
      ∧ ∀ k, loadOutOfRange r.bytes k = false

/-! ### Invariants that every step keeps -/

/-- R140, R175, R176, R177, R182, R190: every step keeps the order and the capacities of the request queue, the transmitter and the
event queue. -/
def Obligations.EveryStepKeepsTheQueues : Prop :=
  ∀ s t : State, RequestsOk s → step s = .next t → RequestsOk t

/-- R115, R116, R117, R118, R122: every step keeps the Parameter Store: no block is lost or held twice, and its memory stays in
canonical form. -/
def Obligations.EveryStepKeepsTheStore : Prop :=
  ∀ s t : State, StoreOk s → step s = .next t → StoreOk t

/-- R3, R41, R45, R47: every step keeps the power account: committed power is the sum of the held draws, each slot's draw, switch and
queue entry are those of its context's state, and the inrush owner is the one slot in an inrush state. -/
def Obligations.EveryStepKeepsThePowerAccount : Prop :=
  ∀ s t : State, PowerOk s → step s = .next t → PowerOk t

/-- R158, R163, R164: in states whose power account is right, every step keeps the window map: windows follow the contexts' states,
stay within their images, and no two claimed input windows share a byte. -/
def Obligations.EveryStepKeepsTheMap : Prop :=
  ∀ s t : State, PowerOk s → MapOk s → step s = .next t → MapOk t
end

