-- ==== Sys2Proof/Laws/State.lean ====
section
/-! SUPPORT. What each update of the state leaves and sets, one lemma per field per update, so that no proof unfolds a record
update. -/

namespace Sys2Proof.Machine

/-! ### Slots -/

@[simp] theorem slot_setSlot_same (s : State) (i : SlotIx) (x : Slot) : (s.setSlot i x).slot i = x :=
  Vector.getElem_set_self i.isLt

theorem slot_setSlot_ne (s : State) {i j : SlotIx} (x : Slot) (h : j ≠ i) : (s.setSlot i x).slot j = s.slot j :=
  Vector.getElem_set_ne i.isLt j.isLt (fun e => h (Fin.ext e.symm))

/-- Setting a slot to what it holds changes nothing. -/
theorem setSlot_slot (s : State) (i : SlotIx) : s.setSlot i (s.slot i) = s := by
  cases s; simp [State.setSlot, State.slot]

@[simp] theorem setSlot_power (s : State) (i : SlotIx) (x : Slot) : (s.setSlot i x).power = s.power := rfl
@[simp] theorem setSlot_trunk (s : State) (i : SlotIx) (x : Slot) : (s.setSlot i x).trunk = s.trunk := rfl
@[simp] theorem setSlot_requests (s : State) (i : SlotIx) (x : Slot) : (s.setSlot i x).requests = s.requests := rfl
@[simp] theorem setSlot_store (s : State) (i : SlotIx) (x : Slot) : (s.setSlot i x).store = s.store := rfl
@[simp] theorem setSlot_events (s : State) (i : SlotIx) (x : Slot) : (s.setSlot i x).events = s.events := rfl
@[simp] theorem setSlot_retained (s : State) (i : SlotIx) (x : Slot) : (s.setSlot i x).retained = s.retained := rfl
@[simp] theorem setSlot_choices (s : State) (i : SlotIx) (x : Slot) : (s.setSlot i x).choices = s.choices := rfl
@[simp] theorem setSlot_pending (s : State) (i : SlotIx) (x : Slot) : (s.setSlot i x).pending = s.pending := rfl

/-! ### modSlot -/

@[simp] theorem modSlot_slot_same (i : SlotIx) (f : Slot → Slot) (s : State) : (modSlot i f s).slot i = f (s.slot i) :=
  slot_setSlot_same s i _
theorem modSlot_slot_ne {i j : SlotIx} (f : Slot → Slot) (s : State) (h : j ≠ i) : (modSlot i f s).slot j = s.slot j :=
  slot_setSlot_ne s _ h
@[simp] theorem modSlot_power (i : SlotIx) (f : Slot → Slot) (s : State) : (modSlot i f s).power = s.power := rfl
@[simp] theorem modSlot_trunk (i : SlotIx) (f : Slot → Slot) (s : State) : (modSlot i f s).trunk = s.trunk := rfl
@[simp] theorem modSlot_requests (i : SlotIx) (f : Slot → Slot) (s : State) : (modSlot i f s).requests = s.requests := rfl
@[simp] theorem modSlot_store (i : SlotIx) (f : Slot → Slot) (s : State) : (modSlot i f s).store = s.store := rfl
@[simp] theorem modSlot_events (i : SlotIx) (f : Slot → Slot) (s : State) : (modSlot i f s).events = s.events := rfl
@[simp] theorem modSlot_retained (i : SlotIx) (f : Slot → Slot) (s : State) : (modSlot i f s).retained = s.retained := rfl
@[simp] theorem modSlot_choices (i : SlotIx) (f : Slot → Slot) (s : State) : (modSlot i f s).choices = s.choices := rfl
@[simp] theorem modSlot_pending (i : SlotIx) (f : Slot → Slot) (s : State) : (modSlot i f s).pending = s.pending := rfl

/-! ### modCtx -/

@[simp] theorem modCtx_slot_same (i : SlotIx) (f : Context → Context) (s : State) :
    (modCtx i f s).slot i = (fun x : Slot => { x with ctx := f x.ctx }) (s.slot i) := slot_setSlot_same s i _
theorem modCtx_slot_ne {i j : SlotIx} (f : Context → Context) (s : State) (h : j ≠ i) :
    (modCtx i f s).slot j = s.slot j := slot_setSlot_ne s _ h
@[simp] theorem modCtx_ctx_same (i : SlotIx) (f : Context → Context) (s : State) : (modCtx i f s).ctx i = f (s.ctx i) :=
  congrArg Slot.ctx (modCtx_slot_same i f s)
theorem modCtx_ctx_ne {i j : SlotIx} (f : Context → Context) (s : State) (h : j ≠ i) : (modCtx i f s).ctx j = s.ctx j :=
  congrArg Slot.ctx (modCtx_slot_ne f s h)
@[simp] theorem modCtx_link (i j : SlotIx) (f : Context → Context) (s : State) : (modCtx i f s).link j = s.link j := by
  by_cases h : j = i
  · subst h; exact (congrArg Slot.link (modCtx_slot_same j f s)).trans rfl
  · exact congrArg Slot.link (modCtx_slot_ne f s h)
@[simp] theorem modCtx_slotPower (i j : SlotIx) (f : Context → Context) (s : State) : (modCtx i f s).slotPower j = s.slotPower j := by
  by_cases h : j = i
  · subst h; exact (congrArg Slot.power (modCtx_slot_same j f s)).trans rfl
  · exact congrArg Slot.power (modCtx_slot_ne f s h)
@[simp] theorem modCtx_map (i j : SlotIx) (f : Context → Context) (s : State) : (modCtx i f s).map j = s.map j := by
  by_cases h : j = i
  · subst h; exact (congrArg Slot.map (modCtx_slot_same j f s)).trans rfl
  · exact congrArg Slot.map (modCtx_slot_ne f s h)
@[simp] theorem modCtx_expected (i j : SlotIx) (f : Context → Context) (s : State) : (modCtx i f s).expected j = s.expected j := by
  by_cases h : j = i
  · subst h; exact (congrArg Slot.expected (modCtx_slot_same j f s)).trans rfl
  · exact congrArg Slot.expected (modCtx_slot_ne f s h)
@[simp] theorem modCtx_power (i : SlotIx) (f : Context → Context) (s : State) : (modCtx i f s).power = s.power := rfl
@[simp] theorem modCtx_trunk (i : SlotIx) (f : Context → Context) (s : State) : (modCtx i f s).trunk = s.trunk := rfl
@[simp] theorem modCtx_requests (i : SlotIx) (f : Context → Context) (s : State) : (modCtx i f s).requests = s.requests := rfl
@[simp] theorem modCtx_store (i : SlotIx) (f : Context → Context) (s : State) : (modCtx i f s).store = s.store := rfl
@[simp] theorem modCtx_events (i : SlotIx) (f : Context → Context) (s : State) : (modCtx i f s).events = s.events := rfl
@[simp] theorem modCtx_retained (i : SlotIx) (f : Context → Context) (s : State) : (modCtx i f s).retained = s.retained := rfl
@[simp] theorem modCtx_choices (i : SlotIx) (f : Context → Context) (s : State) : (modCtx i f s).choices = s.choices := rfl
@[simp] theorem modCtx_pending (i : SlotIx) (f : Context → Context) (s : State) : (modCtx i f s).pending = s.pending := rfl

/-! ### modLink -/

@[simp] theorem modLink_slot_same (i : SlotIx) (f : LinkEngine → LinkEngine) (s : State) :
    (modLink i f s).slot i = (fun x : Slot => { x with link := f x.link }) (s.slot i) := slot_setSlot_same s i _
theorem modLink_slot_ne {i j : SlotIx} (f : LinkEngine → LinkEngine) (s : State) (h : j ≠ i) :
    (modLink i f s).slot j = s.slot j := slot_setSlot_ne s _ h
@[simp] theorem modLink_link_same (i : SlotIx) (f : LinkEngine → LinkEngine) (s : State) : (modLink i f s).link i = f (s.link i) :=
  congrArg Slot.link (modLink_slot_same i f s)
theorem modLink_link_ne {i j : SlotIx} (f : LinkEngine → LinkEngine) (s : State) (h : j ≠ i) : (modLink i f s).link j = s.link j :=
  congrArg Slot.link (modLink_slot_ne f s h)
@[simp] theorem modLink_ctx (i j : SlotIx) (f : LinkEngine → LinkEngine) (s : State) : (modLink i f s).ctx j = s.ctx j := by
  by_cases h : j = i
  · subst h; exact (congrArg Slot.ctx (modLink_slot_same j f s)).trans rfl
  · exact congrArg Slot.ctx (modLink_slot_ne f s h)
@[simp] theorem modLink_slotPower (i j : SlotIx) (f : LinkEngine → LinkEngine) (s : State) : (modLink i f s).slotPower j = s.slotPower j := by
  by_cases h : j = i
  · subst h; exact (congrArg Slot.power (modLink_slot_same j f s)).trans rfl
  · exact congrArg Slot.power (modLink_slot_ne f s h)
@[simp] theorem modLink_map (i j : SlotIx) (f : LinkEngine → LinkEngine) (s : State) : (modLink i f s).map j = s.map j := by
  by_cases h : j = i
  · subst h; exact (congrArg Slot.map (modLink_slot_same j f s)).trans rfl
  · exact congrArg Slot.map (modLink_slot_ne f s h)
@[simp] theorem modLink_expected (i j : SlotIx) (f : LinkEngine → LinkEngine) (s : State) : (modLink i f s).expected j = s.expected j := by
  by_cases h : j = i
  · subst h; exact (congrArg Slot.expected (modLink_slot_same j f s)).trans rfl
  · exact congrArg Slot.expected (modLink_slot_ne f s h)
@[simp] theorem modLink_power (i : SlotIx) (f : LinkEngine → LinkEngine) (s : State) : (modLink i f s).power = s.power := rfl
@[simp] theorem modLink_trunk (i : SlotIx) (f : LinkEngine → LinkEngine) (s : State) : (modLink i f s).trunk = s.trunk := rfl
@[simp] theorem modLink_requests (i : SlotIx) (f : LinkEngine → LinkEngine) (s : State) : (modLink i f s).requests = s.requests := rfl
@[simp] theorem modLink_store (i : SlotIx) (f : LinkEngine → LinkEngine) (s : State) : (modLink i f s).store = s.store := rfl
@[simp] theorem modLink_events (i : SlotIx) (f : LinkEngine → LinkEngine) (s : State) : (modLink i f s).events = s.events := rfl
@[simp] theorem modLink_retained (i : SlotIx) (f : LinkEngine → LinkEngine) (s : State) : (modLink i f s).retained = s.retained := rfl
@[simp] theorem modLink_choices (i : SlotIx) (f : LinkEngine → LinkEngine) (s : State) : (modLink i f s).choices = s.choices := rfl
@[simp] theorem modLink_pending (i : SlotIx) (f : LinkEngine → LinkEngine) (s : State) : (modLink i f s).pending = s.pending := rfl

/-! ### modPower -/

@[simp] theorem modPower_slot_same (i : SlotIx) (f : SlotPower → SlotPower) (s : State) :
    (modPower i f s).slot i = (fun x : Slot => { x with power := f x.power }) (s.slot i) := slot_setSlot_same s i _
theorem modPower_slot_ne {i j : SlotIx} (f : SlotPower → SlotPower) (s : State) (h : j ≠ i) :
    (modPower i f s).slot j = s.slot j := slot_setSlot_ne s _ h
@[simp] theorem modPower_slotPower_same (i : SlotIx) (f : SlotPower → SlotPower) (s : State) : (modPower i f s).slotPower i = f (s.slotPower i) :=
  congrArg Slot.power (modPower_slot_same i f s)
theorem modPower_slotPower_ne {i j : SlotIx} (f : SlotPower → SlotPower) (s : State) (h : j ≠ i) : (modPower i f s).slotPower j = s.slotPower j :=
  congrArg Slot.power (modPower_slot_ne f s h)
@[simp] theorem modPower_ctx (i j : SlotIx) (f : SlotPower → SlotPower) (s : State) : (modPower i f s).ctx j = s.ctx j := by
  by_cases h : j = i
  · subst h; exact (congrArg Slot.ctx (modPower_slot_same j f s)).trans rfl
  · exact congrArg Slot.ctx (modPower_slot_ne f s h)
@[simp] theorem modPower_link (i j : SlotIx) (f : SlotPower → SlotPower) (s : State) : (modPower i f s).link j = s.link j := by
  by_cases h : j = i
  · subst h; exact (congrArg Slot.link (modPower_slot_same j f s)).trans rfl
  · exact congrArg Slot.link (modPower_slot_ne f s h)
@[simp] theorem modPower_map (i j : SlotIx) (f : SlotPower → SlotPower) (s : State) : (modPower i f s).map j = s.map j := by
  by_cases h : j = i
  · subst h; exact (congrArg Slot.map (modPower_slot_same j f s)).trans rfl
  · exact congrArg Slot.map (modPower_slot_ne f s h)
@[simp] theorem modPower_expected (i j : SlotIx) (f : SlotPower → SlotPower) (s : State) : (modPower i f s).expected j = s.expected j := by
  by_cases h : j = i
  · subst h; exact (congrArg Slot.expected (modPower_slot_same j f s)).trans rfl
  · exact congrArg Slot.expected (modPower_slot_ne f s h)
@[simp] theorem modPower_power (i : SlotIx) (f : SlotPower → SlotPower) (s : State) : (modPower i f s).power = s.power := rfl
@[simp] theorem modPower_trunk (i : SlotIx) (f : SlotPower → SlotPower) (s : State) : (modPower i f s).trunk = s.trunk := rfl
@[simp] theorem modPower_requests (i : SlotIx) (f : SlotPower → SlotPower) (s : State) : (modPower i f s).requests = s.requests := rfl
@[simp] theorem modPower_store (i : SlotIx) (f : SlotPower → SlotPower) (s : State) : (modPower i f s).store = s.store := rfl
@[simp] theorem modPower_events (i : SlotIx) (f : SlotPower → SlotPower) (s : State) : (modPower i f s).events = s.events := rfl
@[simp] theorem modPower_retained (i : SlotIx) (f : SlotPower → SlotPower) (s : State) : (modPower i f s).retained = s.retained := rfl
@[simp] theorem modPower_choices (i : SlotIx) (f : SlotPower → SlotPower) (s : State) : (modPower i f s).choices = s.choices := rfl
@[simp] theorem modPower_pending (i : SlotIx) (f : SlotPower → SlotPower) (s : State) : (modPower i f s).pending = s.pending := rfl

/-! ### modMap -/

@[simp] theorem modMap_slot_same (i : SlotIx) (f : SlotMap → SlotMap) (s : State) :
    (modMap i f s).slot i = (fun x : Slot => { x with map := f x.map }) (s.slot i) := slot_setSlot_same s i _
theorem modMap_slot_ne {i j : SlotIx} (f : SlotMap → SlotMap) (s : State) (h : j ≠ i) :
    (modMap i f s).slot j = s.slot j := slot_setSlot_ne s _ h
@[simp] theorem modMap_map_same (i : SlotIx) (f : SlotMap → SlotMap) (s : State) : (modMap i f s).map i = f (s.map i) :=
  congrArg Slot.map (modMap_slot_same i f s)
theorem modMap_map_ne {i j : SlotIx} (f : SlotMap → SlotMap) (s : State) (h : j ≠ i) : (modMap i f s).map j = s.map j :=
  congrArg Slot.map (modMap_slot_ne f s h)
@[simp] theorem modMap_ctx (i j : SlotIx) (f : SlotMap → SlotMap) (s : State) : (modMap i f s).ctx j = s.ctx j := by
  by_cases h : j = i
  · subst h; exact (congrArg Slot.ctx (modMap_slot_same j f s)).trans rfl
  · exact congrArg Slot.ctx (modMap_slot_ne f s h)
@[simp] theorem modMap_link (i j : SlotIx) (f : SlotMap → SlotMap) (s : State) : (modMap i f s).link j = s.link j := by
  by_cases h : j = i
  · subst h; exact (congrArg Slot.link (modMap_slot_same j f s)).trans rfl
  · exact congrArg Slot.link (modMap_slot_ne f s h)
@[simp] theorem modMap_slotPower (i j : SlotIx) (f : SlotMap → SlotMap) (s : State) : (modMap i f s).slotPower j = s.slotPower j := by
  by_cases h : j = i
  · subst h; exact (congrArg Slot.power (modMap_slot_same j f s)).trans rfl
  · exact congrArg Slot.power (modMap_slot_ne f s h)
@[simp] theorem modMap_expected (i j : SlotIx) (f : SlotMap → SlotMap) (s : State) : (modMap i f s).expected j = s.expected j := by
  by_cases h : j = i
  · subst h; exact (congrArg Slot.expected (modMap_slot_same j f s)).trans rfl
  · exact congrArg Slot.expected (modMap_slot_ne f s h)
@[simp] theorem modMap_power (i : SlotIx) (f : SlotMap → SlotMap) (s : State) : (modMap i f s).power = s.power := rfl
@[simp] theorem modMap_trunk (i : SlotIx) (f : SlotMap → SlotMap) (s : State) : (modMap i f s).trunk = s.trunk := rfl
@[simp] theorem modMap_requests (i : SlotIx) (f : SlotMap → SlotMap) (s : State) : (modMap i f s).requests = s.requests := rfl
@[simp] theorem modMap_store (i : SlotIx) (f : SlotMap → SlotMap) (s : State) : (modMap i f s).store = s.store := rfl
@[simp] theorem modMap_events (i : SlotIx) (f : SlotMap → SlotMap) (s : State) : (modMap i f s).events = s.events := rfl
@[simp] theorem modMap_retained (i : SlotIx) (f : SlotMap → SlotMap) (s : State) : (modMap i f s).retained = s.retained := rfl
@[simp] theorem modMap_choices (i : SlotIx) (f : SlotMap → SlotMap) (s : State) : (modMap i f s).choices = s.choices := rfl
@[simp] theorem modMap_pending (i : SlotIx) (f : SlotMap → SlotMap) (s : State) : (modMap i f s).pending = s.pending := rfl

/-! ### setExpected -/

@[simp] theorem setExpected_slot_same (i : SlotIx) (r : Option ExpRecord) (s : State) :
    (setExpected i r s).slot i = (fun x : Slot => { x with expected := r }) (s.slot i) := slot_setSlot_same s i _
theorem setExpected_slot_ne {i j : SlotIx} (r : Option ExpRecord) (s : State) (h : j ≠ i) :
    (setExpected i r s).slot j = s.slot j := slot_setSlot_ne s _ h
@[simp] theorem setExpected_expected_same (i : SlotIx) (r : Option ExpRecord) (s : State) : (setExpected i r s).expected i = r :=
  congrArg Slot.expected (setExpected_slot_same i r s)
theorem setExpected_expected_ne {i j : SlotIx} (r : Option ExpRecord) (s : State) (h : j ≠ i) : (setExpected i r s).expected j = s.expected j :=
  congrArg Slot.expected (setExpected_slot_ne r s h)
@[simp] theorem setExpected_ctx (i j : SlotIx) (r : Option ExpRecord) (s : State) : (setExpected i r s).ctx j = s.ctx j := by
  by_cases h : j = i
  · subst h; exact (congrArg Slot.ctx (setExpected_slot_same j r s)).trans rfl
  · exact congrArg Slot.ctx (setExpected_slot_ne r s h)
@[simp] theorem setExpected_link (i j : SlotIx) (r : Option ExpRecord) (s : State) : (setExpected i r s).link j = s.link j := by
  by_cases h : j = i
  · subst h; exact (congrArg Slot.link (setExpected_slot_same j r s)).trans rfl
  · exact congrArg Slot.link (setExpected_slot_ne r s h)
@[simp] theorem setExpected_slotPower (i j : SlotIx) (r : Option ExpRecord) (s : State) : (setExpected i r s).slotPower j = s.slotPower j := by
  by_cases h : j = i
  · subst h; exact (congrArg Slot.power (setExpected_slot_same j r s)).trans rfl
  · exact congrArg Slot.power (setExpected_slot_ne r s h)
@[simp] theorem setExpected_map (i j : SlotIx) (r : Option ExpRecord) (s : State) : (setExpected i r s).map j = s.map j := by
  by_cases h : j = i
  · subst h; exact (congrArg Slot.map (setExpected_slot_same j r s)).trans rfl
  · exact congrArg Slot.map (setExpected_slot_ne r s h)
@[simp] theorem setExpected_power (i : SlotIx) (r : Option ExpRecord) (s : State) : (setExpected i r s).power = s.power := rfl
@[simp] theorem setExpected_trunk (i : SlotIx) (r : Option ExpRecord) (s : State) : (setExpected i r s).trunk = s.trunk := rfl
@[simp] theorem setExpected_requests (i : SlotIx) (r : Option ExpRecord) (s : State) : (setExpected i r s).requests = s.requests := rfl
@[simp] theorem setExpected_store (i : SlotIx) (r : Option ExpRecord) (s : State) : (setExpected i r s).store = s.store := rfl
@[simp] theorem setExpected_events (i : SlotIx) (r : Option ExpRecord) (s : State) : (setExpected i r s).events = s.events := rfl
@[simp] theorem setExpected_retained (i : SlotIx) (r : Option ExpRecord) (s : State) : (setExpected i r s).retained = s.retained := rfl
@[simp] theorem setExpected_choices (i : SlotIx) (r : Option ExpRecord) (s : State) : (setExpected i r s).choices = s.choices := rfl
@[simp] theorem setExpected_pending (i : SlotIx) (r : Option ExpRecord) (s : State) : (setExpected i r s).pending = s.pending := rfl

/-! ### modRack -/

@[simp] theorem modRack_power (f : PowerBlock → PowerBlock) (s : State) : (modRack f s).power = f s.power := rfl
@[simp] theorem modRack_slot (f : PowerBlock → PowerBlock) (s : State) (i : SlotIx) : (modRack f s).slot i = s.slot i := rfl
@[simp] theorem modRack_ctx (f : PowerBlock → PowerBlock) (s : State) (i : SlotIx) : (modRack f s).ctx i = s.ctx i := rfl
@[simp] theorem modRack_link (f : PowerBlock → PowerBlock) (s : State) (i : SlotIx) : (modRack f s).link i = s.link i := rfl
@[simp] theorem modRack_slotPower (f : PowerBlock → PowerBlock) (s : State) (i : SlotIx) : (modRack f s).slotPower i = s.slotPower i := rfl
@[simp] theorem modRack_map (f : PowerBlock → PowerBlock) (s : State) (i : SlotIx) : (modRack f s).map i = s.map i := rfl
@[simp] theorem modRack_expected (f : PowerBlock → PowerBlock) (s : State) (i : SlotIx) : (modRack f s).expected i = s.expected i := rfl
@[simp] theorem modRack_trunk (f : PowerBlock → PowerBlock) (s : State) : (modRack f s).trunk = s.trunk := rfl
@[simp] theorem modRack_requests (f : PowerBlock → PowerBlock) (s : State) : (modRack f s).requests = s.requests := rfl
@[simp] theorem modRack_store (f : PowerBlock → PowerBlock) (s : State) : (modRack f s).store = s.store := rfl
@[simp] theorem modRack_events (f : PowerBlock → PowerBlock) (s : State) : (modRack f s).events = s.events := rfl
@[simp] theorem modRack_retained (f : PowerBlock → PowerBlock) (s : State) : (modRack f s).retained = s.retained := rfl
@[simp] theorem modRack_choices (f : PowerBlock → PowerBlock) (s : State) : (modRack f s).choices = s.choices := rfl
@[simp] theorem modRack_pending (f : PowerBlock → PowerBlock) (s : State) : (modRack f s).pending = s.pending := rfl

/-! ### modTrunk -/

@[simp] theorem modTrunk_trunk (f : Trunk → Trunk) (s : State) : (modTrunk f s).trunk = f s.trunk := rfl
@[simp] theorem modTrunk_slot (f : Trunk → Trunk) (s : State) (i : SlotIx) : (modTrunk f s).slot i = s.slot i := rfl
@[simp] theorem modTrunk_ctx (f : Trunk → Trunk) (s : State) (i : SlotIx) : (modTrunk f s).ctx i = s.ctx i := rfl
@[simp] theorem modTrunk_link (f : Trunk → Trunk) (s : State) (i : SlotIx) : (modTrunk f s).link i = s.link i := rfl
@[simp] theorem modTrunk_slotPower (f : Trunk → Trunk) (s : State) (i : SlotIx) : (modTrunk f s).slotPower i = s.slotPower i := rfl
@[simp] theorem modTrunk_map (f : Trunk → Trunk) (s : State) (i : SlotIx) : (modTrunk f s).map i = s.map i := rfl
@[simp] theorem modTrunk_expected (f : Trunk → Trunk) (s : State) (i : SlotIx) : (modTrunk f s).expected i = s.expected i := rfl
@[simp] theorem modTrunk_power (f : Trunk → Trunk) (s : State) : (modTrunk f s).power = s.power := rfl
@[simp] theorem modTrunk_requests (f : Trunk → Trunk) (s : State) : (modTrunk f s).requests = s.requests := rfl
@[simp] theorem modTrunk_store (f : Trunk → Trunk) (s : State) : (modTrunk f s).store = s.store := rfl
@[simp] theorem modTrunk_events (f : Trunk → Trunk) (s : State) : (modTrunk f s).events = s.events := rfl
@[simp] theorem modTrunk_retained (f : Trunk → Trunk) (s : State) : (modTrunk f s).retained = s.retained := rfl
@[simp] theorem modTrunk_choices (f : Trunk → Trunk) (s : State) : (modTrunk f s).choices = s.choices := rfl
@[simp] theorem modTrunk_pending (f : Trunk → Trunk) (s : State) : (modTrunk f s).pending = s.pending := rfl

/-! ### modRequests -/

@[simp] theorem modRequests_requests (f : RequestBlock → RequestBlock) (s : State) : (modRequests f s).requests = f s.requests := rfl
@[simp] theorem modRequests_slot (f : RequestBlock → RequestBlock) (s : State) (i : SlotIx) : (modRequests f s).slot i = s.slot i := rfl
@[simp] theorem modRequests_ctx (f : RequestBlock → RequestBlock) (s : State) (i : SlotIx) : (modRequests f s).ctx i = s.ctx i := rfl
@[simp] theorem modRequests_link (f : RequestBlock → RequestBlock) (s : State) (i : SlotIx) : (modRequests f s).link i = s.link i := rfl
@[simp] theorem modRequests_slotPower (f : RequestBlock → RequestBlock) (s : State) (i : SlotIx) : (modRequests f s).slotPower i = s.slotPower i := rfl
@[simp] theorem modRequests_map (f : RequestBlock → RequestBlock) (s : State) (i : SlotIx) : (modRequests f s).map i = s.map i := rfl
@[simp] theorem modRequests_expected (f : RequestBlock → RequestBlock) (s : State) (i : SlotIx) : (modRequests f s).expected i = s.expected i := rfl
@[simp] theorem modRequests_power (f : RequestBlock → RequestBlock) (s : State) : (modRequests f s).power = s.power := rfl
@[simp] theorem modRequests_trunk (f : RequestBlock → RequestBlock) (s : State) : (modRequests f s).trunk = s.trunk := rfl
@[simp] theorem modRequests_store (f : RequestBlock → RequestBlock) (s : State) : (modRequests f s).store = s.store := rfl
@[simp] theorem modRequests_events (f : RequestBlock → RequestBlock) (s : State) : (modRequests f s).events = s.events := rfl
@[simp] theorem modRequests_retained (f : RequestBlock → RequestBlock) (s : State) : (modRequests f s).retained = s.retained := rfl
@[simp] theorem modRequests_choices (f : RequestBlock → RequestBlock) (s : State) : (modRequests f s).choices = s.choices := rfl
@[simp] theorem modRequests_pending (f : RequestBlock → RequestBlock) (s : State) : (modRequests f s).pending = s.pending := rfl

/-! ### modEvents -/

@[simp] theorem modEvents_events (f : EventBlock → EventBlock) (s : State) : (modEvents f s).events = f s.events := rfl
@[simp] theorem modEvents_slot (f : EventBlock → EventBlock) (s : State) (i : SlotIx) : (modEvents f s).slot i = s.slot i := rfl
@[simp] theorem modEvents_ctx (f : EventBlock → EventBlock) (s : State) (i : SlotIx) : (modEvents f s).ctx i = s.ctx i := rfl
@[simp] theorem modEvents_link (f : EventBlock → EventBlock) (s : State) (i : SlotIx) : (modEvents f s).link i = s.link i := rfl
@[simp] theorem modEvents_slotPower (f : EventBlock → EventBlock) (s : State) (i : SlotIx) : (modEvents f s).slotPower i = s.slotPower i := rfl
@[simp] theorem modEvents_map (f : EventBlock → EventBlock) (s : State) (i : SlotIx) : (modEvents f s).map i = s.map i := rfl
@[simp] theorem modEvents_expected (f : EventBlock → EventBlock) (s : State) (i : SlotIx) : (modEvents f s).expected i = s.expected i := rfl
@[simp] theorem modEvents_power (f : EventBlock → EventBlock) (s : State) : (modEvents f s).power = s.power := rfl
@[simp] theorem modEvents_trunk (f : EventBlock → EventBlock) (s : State) : (modEvents f s).trunk = s.trunk := rfl
@[simp] theorem modEvents_requests (f : EventBlock → EventBlock) (s : State) : (modEvents f s).requests = s.requests := rfl
@[simp] theorem modEvents_store (f : EventBlock → EventBlock) (s : State) : (modEvents f s).store = s.store := rfl
@[simp] theorem modEvents_retained (f : EventBlock → EventBlock) (s : State) : (modEvents f s).retained = s.retained := rfl
@[simp] theorem modEvents_choices (f : EventBlock → EventBlock) (s : State) : (modEvents f s).choices = s.choices := rfl
@[simp] theorem modEvents_pending (f : EventBlock → EventBlock) (s : State) : (modEvents f s).pending = s.pending := rfl

/-! ### modStore -/

@[simp] theorem modStore_store (f : Store → Store) (s : State) : (modStore f s).store = f s.store := rfl
@[simp] theorem modStore_slot (f : Store → Store) (s : State) (i : SlotIx) : (modStore f s).slot i = s.slot i := rfl
@[simp] theorem modStore_ctx (f : Store → Store) (s : State) (i : SlotIx) : (modStore f s).ctx i = s.ctx i := rfl
@[simp] theorem modStore_link (f : Store → Store) (s : State) (i : SlotIx) : (modStore f s).link i = s.link i := rfl
@[simp] theorem modStore_slotPower (f : Store → Store) (s : State) (i : SlotIx) : (modStore f s).slotPower i = s.slotPower i := rfl
@[simp] theorem modStore_map (f : Store → Store) (s : State) (i : SlotIx) : (modStore f s).map i = s.map i := rfl
@[simp] theorem modStore_expected (f : Store → Store) (s : State) (i : SlotIx) : (modStore f s).expected i = s.expected i := rfl
@[simp] theorem modStore_power (f : Store → Store) (s : State) : (modStore f s).power = s.power := rfl
@[simp] theorem modStore_trunk (f : Store → Store) (s : State) : (modStore f s).trunk = s.trunk := rfl
@[simp] theorem modStore_requests (f : Store → Store) (s : State) : (modStore f s).requests = s.requests := rfl
@[simp] theorem modStore_events (f : Store → Store) (s : State) : (modStore f s).events = s.events := rfl
@[simp] theorem modStore_retained (f : Store → Store) (s : State) : (modStore f s).retained = s.retained := rfl
@[simp] theorem modStore_choices (f : Store → Store) (s : State) : (modStore f s).choices = s.choices := rfl
@[simp] theorem modStore_pending (f : Store → Store) (s : State) : (modStore f s).pending = s.pending := rfl

end Sys2Proof.Machine
end

