-- ==== Sys2Proof/Laws/Evolves.lean ====
section
/-! SUPPORT. What no event of the device touches, whatever it does: the requests, the expectation records, the budget, the cycle
configuration, the attention settings and the contents of the parameter sets, which requests alone change; and that events are
only ever appended. Said once for each operation, as `Evolves s t → Evolves s (operation t)`. -/

namespace Sys2Proof.Machine

namespace Evolves

theorem refl (s : State) : Evolves s s :=
  ⟨rfl, rfl, fun _ => rfl, rfl, rfl, rfl, rfl, rfl, rfl, rfl, rfl, rfl, fun _ => rfl, List.prefix_refl _, id, id⟩

theorem trans {s t u : State} (a : Evolves s t) (b : Evolves t u) : Evolves s u :=
  ⟨b.pending.trans a.pending, b.requests.trans a.requests, fun i => (b.expected i).trans (a.expected i),
    b.budget.trans a.budget, b.period.trans a.period, b.outLength.trans a.outLength, b.inLength.trans a.inLength,
    b.reserve.trans a.reserve, b.interval.trans a.interval, b.moderation.trans a.moderation, b.memory.trans a.memory,
    b.pool.trans a.pool, fun n => (b.sets n).trans (a.sets n), a.events.trans b.events, fun h => b.capacity (a.capacity h),
    fun h => b.lost (a.lost h)⟩

variable {s t : State}

/-! ### The plain updates -/

@[simp] theorem modCtx (i : SlotIx) (f : Context → Context) (h : Evolves s t) : Evolves s (modCtx i f t) :=
  h.trans ⟨rfl, rfl, fun _ => by simp, rfl, rfl, rfl, rfl, rfl, rfl, rfl, rfl, rfl, fun _ => rfl, List.prefix_refl _, id, id⟩

@[simp] theorem modLink (i : SlotIx) (f : LinkEngine → LinkEngine) (h : Evolves s t) : Evolves s (modLink i f t) :=
  h.trans ⟨rfl, rfl, fun _ => by simp, rfl, rfl, rfl, rfl, rfl, rfl, rfl, rfl, rfl, fun _ => rfl, List.prefix_refl _, id, id⟩

@[simp] theorem modPower (i : SlotIx) (f : SlotPower → SlotPower) (h : Evolves s t) : Evolves s (modPower i f t) :=
  h.trans ⟨rfl, rfl, fun _ => by simp, rfl, rfl, rfl, rfl, rfl, rfl, rfl, rfl, rfl, fun _ => rfl, List.prefix_refl _, id, id⟩

@[simp] theorem modMap (i : SlotIx) (f : SlotMap → SlotMap) (h : Evolves s t) : Evolves s (modMap i f t) :=
  h.trans ⟨rfl, rfl, fun _ => by simp, rfl, rfl, rfl, rfl, rfl, rfl, rfl, rfl, rfl, fun _ => rfl, List.prefix_refl _, id, id⟩

@[simp] theorem modRack (f : PowerBlock → PowerBlock) (hf : ∀ p, (f p).budget = p.budget) (h : Evolves s t) :
    Evolves s (modRack f t) :=
  h.trans ⟨rfl, rfl, fun _ => rfl, hf _, rfl, rfl, rfl, rfl, rfl, rfl, rfl, rfl, fun _ => rfl, List.prefix_refl _, id, id⟩

@[simp] theorem modTrunk (f : Trunk → Trunk)
    (hf : ∀ x, (f x).period = x.period ∧ (f x).outLength = x.outLength ∧ (f x).inLength = x.inLength
      ∧ (f x).reserve = x.reserve) (h : Evolves s t) : Evolves s (modTrunk f t) :=
  h.trans ⟨rfl, rfl, fun _ => rfl, rfl, (hf _).1, (hf _).2.1, (hf _).2.2.1, (hf _).2.2.2, rfl, rfl, rfl, rfl, fun _ => rfl,
    List.prefix_refl _, id, id⟩

@[simp] theorem modStore (f : Store → Store)
    (hf : ∀ x, (f x).memory = x.memory ∧ (f x).pool = x.pool ∧ ∀ n, ((f x).set n).unpinned = (x.set n).unpinned)
    (h : Evolves s t) : Evolves s (modStore f t) :=
  h.trans ⟨rfl, rfl, fun _ => rfl, rfl, rfl, rfl, rfl, rfl, rfl, rfl, (hf _).1, (hf _).2.1, fun n => (hf _).2.2 n,
    List.prefix_refl _, id, id⟩

@[simp] theorem post (i : Option SlotIx) (b : EventBody) (h : Evolves s t) : Evolves s (post i b t) := by
  refine h.trans ⟨rfl, rfl, fun _ => rfl, rfl, rfl, rfl, rfl, rfl, ?_, ?_, rfl, rfl, fun _ => rfl, ?_, ?_, ?_⟩ <;>
    by_cases c : t.events.events.length < 32 <;>
    simp [Machine.post, EventBlock.append, Config.eventCapacity, c]

@[simp] theorem choices (n : Nat) (h : Evolves s t) : Evolves s { t with choices := n } :=
  h.trans ⟨rfl, rfl, fun _ => rfl, rfl, rfl, rfl, rfl, rfl, rfl, rfl, rfl, rfl, fun _ => rfl, List.prefix_refl _, id, id⟩

@[simp] theorem retained (b : Bytes) (h : Evolves s t) : Evolves s { t with retained := b } :=
  h.trans ⟨rfl, rfl, fun _ => rfl, rfl, rfl, rfl, rfl, rfl, rfl, rfl, rfl, rfl, fun _ => rfl, List.prefix_refl _, id, id⟩

@[simp] theorem cond {c : Prop} [Decidable c] {u v : State} (hu : Evolves s u) (hv : Evolves s v) :
    Evolves s (if c then u else v) := by split <;> assumption

theorem foldl {α : Type} (act : State → α → State) (hact : ∀ t a, Evolves s t → Evolves s (act t a)) (l : List α)
    (h : Evolves s t) : Evolves s (l.foldl act t) := by
  induction l generalizing t with
  | nil => exact h
  | cons a l ih => exact ih (hact t a h)

theorem forList (l : List SlotIx) (act : SlotIx → State → State) (hact : ∀ i t, Evolves s t → Evolves s (act i t))
    (h : Evolves s t) : Evolves s (forList l act t) :=
  foldl _ (fun t a => hact a t) _ (choices _ h)

theorem eachSlot (act : SlotIx → State → State) (hact : ∀ i t, Evolves s t → Evolves s (act i t)) (h : Evolves s t) :
    Evolves s (eachSlot act t) :=
  foldl _ (fun t a => hact a t) _ h

theorem eitherOrder (a b : State → State) (ha : ∀ t, Evolves s t → Evolves s (a t))
    (hb : ∀ t, Evolves s t → Evolves s (b t)) (h : Evolves s t) : Evolves s (eitherOrder a b t) := by
  unfold Machine.eitherOrder
  dsimp only
  split
  · exact ha _ (hb _ (choices _ h))
  · exact hb _ (ha _ (choices _ h))

/-! ### Pins -/

theorem pin_kept (n : SetIx) (x : Store) :
    (Store.pin n x).memory = x.memory ∧ (Store.pin n x).pool = x.pool
      ∧ ∀ m, ((Store.pin n x).set m).unpinned = (x.set m).unpinned := by
  refine ⟨rfl, rfl, fun m => ?_⟩
  by_cases e : m = n
  · subst e; simp [Store.pin, Store.setRecord, Store.set, SetRecord.unpinned]
  · have e' : ¬ (n : Nat) = m := fun e' => e (Fin.ext e'.symm)
    simp [Store.pin, Store.setRecord, Store.set, SetRecord.unpinned, e']

theorem unpin_kept (n : SetIx) (x : Store) :
    (Store.unpin n x).memory = x.memory ∧ (Store.unpin n x).pool = x.pool
      ∧ ∀ m, ((Store.unpin n x).set m).unpinned = (x.set m).unpinned := by
  refine ⟨rfl, rfl, fun m => ?_⟩
  by_cases e : m = n
  · subst e; simp [Store.unpin, Store.setRecord, Store.set, SetRecord.unpinned]
  · have e' : ¬ (n : Nat) = m := fun e' => e (Fin.ext e'.symm)
    simp [Store.unpin, Store.setRecord, Store.set, SetRecord.unpinned, e']

/-! ### Sending -/

@[simp] theorem sendNow (i : SlotIx) (x : NextSend) (h : Evolves s t) : Evolves s (sendNow i x t) := by
  unfold Machine.sendNow
  exact modLink i _ h

@[simp] theorem send (i : SlotIx) (x : NextSend) (h : Evolves s t) : Evolves s (send i x t) := by
  simp (maxDischargeDepth := 12) [Machine.send, h]

@[simp] theorem turnaroundEnds (i : SlotIx) (h : Evolves s t) : Evolves s (turnaroundEnds i t) := by
  unfold Machine.turnaroundEnds
  dsimp only
  split
  · exact h
  · split <;> simp (maxDischargeDepth := 12) [h]

@[simp] theorem baseTraining (i : SlotIx) (h : Evolves s t) : Evolves s (baseTraining i t) := by
  simp (maxDischargeDepth := 12) [Machine.baseTraining, h]

@[simp] theorem rateTraining (i : SlotIx) (c : RateCode) (h : Evolves s t) : Evolves s (rateTraining i c t) := by
  simp (maxDischargeDepth := 12) [Machine.rateTraining, h]

/-! ### Power -/

@[simp] theorem leaveQueue (i : SlotIx) (h : Evolves s t) : Evolves s (leaveQueue i t) := by
  simp (maxDischargeDepth := 12) [Machine.leaveQueue, h]

@[simp] theorem passOver (e : PowerEntry) (h : Evolves s t) : Evolves s (passOver e t) := by
  simp (maxDischargeDepth := 12) [Machine.passOver, h]

@[simp] theorem grant (e : PowerEntry) (h : Evolves s t) : Evolves s (grant e t) := by
  unfold Machine.grant
  dsimp only
  split <;> simp (maxDischargeDepth := 12) [grantStandby, grantRun, h]

theorem examine (l : List PowerEntry) (h : Evolves s t) : Evolves s (examine l t) := by
  induction l generalizing t with
  | nil => exact h
  | cons e l ih =>
    unfold Machine.examine
    split
    · simp (maxDischargeDepth := 12) [h]
    · exact ih (by simp (maxDischargeDepth := 12) [h])

@[simp] theorem pass (h : Evolves s t) : Evolves s (pass t) := by
  unfold Machine.pass
  split
  · exact h
  · exact examine _ h

@[simp] theorem join (i : SlotIx) (x : Stage) (n : Nat) (h : Evolves s t) : Evolves s (join i x n t) := by
  simp (maxDischargeDepth := 12) [Machine.join, h]

theorem besidePass (due : Bool) (report : State → State) (hr : ∀ t, Evolves s t → Evolves s (report t))
    (h : Evolves s t) : Evolves s (besidePass due report t) := by
  unfold Machine.besidePass
  split
  · exact eitherOrder _ _ hr (fun _ => pass) h
  · exact hr t h

@[simp] theorem freeAllowance (i : SlotIx) (h : Evolves s t) : Evolves s (freeAllowance i t) := by
  simp (maxDischargeDepth := 12) [Machine.freeAllowance, h]

@[simp] theorem switchOff (i : SlotIx) (h : Evolves s t) : Evolves s (switchOff i t) := by
  simp (maxDischargeDepth := 12) [Machine.switchOff, h]

@[simp] theorem backToStandby (i : SlotIx) (h : Evolves s t) : Evolves s (backToStandby i t) := by
  simp (maxDischargeDepth := 12) [Machine.backToStandby, h]

@[simp] theorem assertion (i : SlotIx) (h : Evolves s t) : Evolves s (assertion i t) := by
  simp (maxDischargeDepth := 12) [Machine.assertion, h]

@[simp] theorem examineLine (i : SlotIx) (h : Evolves s t) : Evolves s (examineLine i t) := by
  simp (maxDischargeDepth := 12) [Machine.examineLine, h]

/-! ### The slot context -/

@[simp] theorem milestone (i : SlotIx) (h : Evolves s t) : Evolves s (milestone i t) := by
  simp (maxDischargeDepth := 12) [Machine.milestone, h]

@[simp] theorem disarm (i : SlotIx) (h : Evolves s t) : Evolves s (disarm i t) := by simp (maxDischargeDepth := 12) [Machine.disarm, h]

@[simp] theorem retire (i : SlotIx) (h : Evolves s t) : Evolves s (retire i t) := by simp (maxDischargeDepth := 12) [Machine.retire, h]

@[simp] theorem refuseAdmission (i : SlotIx) (r : Refused) (h : Evolves s t) : Evolves s (refuseAdmission i r t) := by
  simp (maxDischargeDepth := 12) [Machine.refuseAdmission, h]

@[simp] theorem tryAdmit (i : SlotIx) (h : Evolves s t) : Evolves s (tryAdmit i t) := by
  unfold Machine.tryAdmit
  split
  · split <;> simp (maxDischargeDepth := 12) [h]
  · exact h

@[simp] theorem recheckAll (h : Evolves s t) : Evolves s (recheckAll t) := forList _ _ (fun i _ => tryAdmit i) h

@[simp] theorem recheckIf (due : Bool) (h : Evolves s t) : Evolves s (recheckIf due t) := by
  simp (maxDischargeDepth := 12) [Machine.recheckIf, h]

@[simp] theorem enterReady (i : SlotIx) (h : Evolves s t) : Evolves s (enterReady i t) := by simp (maxDischargeDepth := 12) [Machine.enterReady, h]

@[simp] theorem armWindows (i : SlotIx) (h : Evolves s t) : Evolves s (armWindows i t) := by
  unfold Machine.armWindows
  split <;> simp (maxDischargeDepth := 12) [h]

@[simp] theorem unpin (i : SlotIx) (h : Evolves s t) : Evolves s (unpin i t) := by
  unfold Machine.unpin
  split
  · exact modCtx i _ (modStore _ (unpin_kept _) h)
  · exact h

@[simp] theorem releases (i : SlotIx) (h : Evolves s t) : Evolves s (releases i t) := by simp (maxDischargeDepth := 12) [Machine.releases, h]

theorem withReleases (i : SlotIx) (finish : State → State) (hf : ∀ t, Evolves s t → Evolves s (finish t))
    (h : Evolves s t) : Evolves s (withReleases i finish t) :=
  besidePass _ _ (fun u hu => recheckIf _ (hf u hu)) (releases i h)

@[simp] theorem enterEmpty (i : SlotIx) (h : Evolves s t) : Evolves s (enterEmpty i t) := by simp (maxDischargeDepth := 12) [Machine.enterEmpty, h]

@[simp] theorem enterWithdrawn (i : SlotIx) (r : Reason) (h : Evolves s t) : Evolves s (enterWithdrawn i r t) := by
  simp (maxDischargeDepth := 12) [Machine.enterWithdrawn, h]

@[simp] theorem enterFaulted (i : SlotIx) (f : Option FaultRecord) (h : Evolves s t) : Evolves s (enterFaulted i f t) := by
  simp (maxDischargeDepth := 12) [Machine.enterFaulted, h]

@[simp] theorem definitiveFault (i : SlotIx) (k : FaultKind) (d : Nat) (h : Evolves s t) :
    Evolves s (definitiveFault i k d t) :=
  withReleases i _ (fun _ hu => enterFaulted i _ hu) h

@[simp] theorem retry (i : SlotIx) (h : Evolves s t) : Evolves s (retry i t) := by
  unfold Machine.retry
  exact besidePass _ _ (fun u hu => recheckIf _ (baseTraining i hu))
    (modCtx i _ (disarm i (unpin i (backToStandby i (leaveQueue i h)))))

@[simp] theorem raiseAttempts (i : SlotIx) (h : Evolves s t) : Evolves s (raiseAttempts i t) := by
  simp (maxDischargeDepth := 12) [Machine.raiseAttempts, h]

@[simp] theorem transientFault (i : SlotIx) (k : FaultKind) (h : Evolves s t) : Evolves s (transientFault i k t) := by
  simp (maxDischargeDepth := 12) [Machine.transientFault, h]

@[simp] theorem enterRunWait (i : SlotIx) (h : Evolves s t) : Evolves s (enterRunWait i t) := by
  simp (maxDischargeDepth := 12) [Machine.enterRunWait, h]

@[simp] theorem holdPointOne (i : SlotIx) (h : Evolves s t) : Evolves s (holdPointOne i t) := by
  simp (maxDischargeDepth := 12) [Machine.holdPointOne, h]

@[simp] theorem park (i : SlotIx) (r : Reason) (x : MatchResult) (p : Option Nat) (o : SetOutcome) (c : Nat)
    (h : Evolves s t) : Evolves s (park i r x p o c t) := by
  unfold Machine.park
  dsimp only
  split <;> simp (maxDischargeDepth := 12) [h]

@[simp] theorem goForward (i : SlotIx) (x : MatchResult) (l : Layout) (c : RateCode) (b : Bool) (n : Nat)
    (h : Evolves s t) : Evolves s (goForward i x l c b n t) := by
  have hp : Evolves s (pinFor l.set t) := by
    unfold pinFor
    split
    · exact modStore _ (pin_kept _) h
    · exact h
  unfold Machine.goForward
  dsimp only
  split <;> simp (maxDischargeDepth := 12) [hp]

@[simp] theorem runMatching (i : SlotIx) (h : Evolves s t) : Evolves s (runMatching i t) := by
  unfold Machine.runMatching
  split
  · exact h
  · split
    · split
      · split <;> simp (maxDischargeDepth := 12) [h]
      · exact withReleases i _ (fun _ hu => enterWithdrawn i _ hu) h
    · split <;> simp (maxDischargeDepth := 12) [h]

@[simp] theorem beginWalk (i : SlotIx) (h : Evolves s t) : Evolves s (beginWalk i t) := by simp (maxDischargeDepth := 12) [Machine.beginWalk, h]

@[simp] theorem readAnswered (i : SlotIx) (d : Bytes) (h : Evolves s t) : Evolves s (readAnswered i d t) := by
  unfold Machine.readAnswered
  split
  · exact h
  · split <;> simp (maxDischargeDepth := 12) [h]

@[simp] theorem setPhase (i : SlotIx) (p : DownloadPhase) (h : Evolves s t) : Evolves s (setPhase i p t) := by
  simp (maxDischargeDepth := 12) [Machine.setPhase, h]

@[simp] theorem enterParameterizing (i : SlotIx) (n : SetIx) (h : Evolves s t) :
    Evolves s (enterParameterizing i n t) := by
  unfold Machine.enterParameterizing
  dsimp only
  split <;> simp (maxDischargeDepth := 12) [h]

@[simp] theorem runPhaseEnded (i : SlotIx) (h : Evolves s t) : Evolves s (runPhaseEnded i t) := by
  unfold Machine.runPhaseEnded
  split
  · split <;> simp (maxDischargeDepth := 12) [h]
  · exact h

@[simp] theorem bulkComplete (i : SlotIx) (h : Evolves s t) : Evolves s (bulkComplete i t) := by
  simp (maxDischargeDepth := 12) [Machine.bulkComplete, h]

@[simp] theorem startTransfer (i : SlotIx) (h : Evolves s t) : Evolves s (startTransfer i t) := by
  unfold Machine.startTransfer
  split
  · exact h
  · split <;> simp (maxDischargeDepth := 12) [h]

@[simp] theorem downloadComplete (i : SlotIx) (h : Evolves s t) : Evolves s (downloadComplete i t) := by
  simp (maxDischargeDepth := 12) [Machine.downloadComplete, h]

@[simp] theorem enterDraining (i : SlotIx) (r : Reason) (h : Evolves s t) : Evolves s (enterDraining i r t) := by
  simp (maxDischargeDepth := 12) [Machine.enterDraining, h]

@[simp] theorem stopEnded (i : SlotIx) (h : Evolves s t) : Evolves s (stopEnded i t) :=
  withReleases i _ (fun _ hu => enterWithdrawn i _ hu) h

@[simp] theorem drainComplete (i : SlotIx) (h : Evolves s t) : Evolves s (drainComplete i t) := by
  unfold Machine.drainComplete
  dsimp only
  split
  · exact withReleases i _ (fun _ hu => enterEmpty i hu) h
  · split
    · simp (maxDischargeDepth := 12) [h]
    · exact withReleases i _ (fun _ hu => enterWithdrawn i _ hu) h
  · split
    · split
      · simp (maxDischargeDepth := 12) [h]
      · exact withReleases i _ (fun _ hu => enterFaulted i _ hu) h
    · exact withReleases i _ (fun _ hu => enterFaulted i _ hu) h
  · exact withReleases i _ (fun _ hu => enterFaulted i _ hu) h

/-! ### Reports -/

@[simp] theorem reportLinkLost (i : SlotIx) (h : Evolves s t) : Evolves s (reportLinkLost i t) := by
  simp (maxDischargeDepth := 12) [Machine.reportLinkLost, h]

@[simp] theorem reportPresent (i : SlotIx) (h : Evolves s t) : Evolves s (reportPresent i t) := by
  simp (maxDischargeDepth := 12) [Machine.reportPresent, h]

@[simp] theorem reportAbsent (i : SlotIx) (h : Evolves s t) : Evolves s (reportAbsent i t) := by
  unfold Machine.reportAbsent
  split
  · exact h
  · simp (maxDischargeDepth := 12) [h]
  · exact withReleases i _ (fun _ hu => enterDraining i _ hu) h
  · split
    · exact withReleases i _ (fun _ hu => modCtx i _ hu) h
    · simp (maxDischargeDepth := 12) [h]
  · exact withReleases i _ (fun _ hu => enterEmpty i hu) h

@[simp] theorem reportTrip (i : SlotIx) (h : Evolves s t) : Evolves s (reportTrip i t) := by
  unfold Machine.reportTrip
  dsimp only
  split
  · exact withReleases i _ (fun _ hu => enterDraining i _ (modCtx i _ hu)) h
  · simp (maxDischargeDepth := 12) [h]
  · exact withReleases i _ (fun _ hu => enterWithdrawn i _ (modCtx i _ hu)) h
  all_goals first | exact h | exact withReleases i _ (fun _ hu => enterFaulted i _ hu) h

@[simp] theorem reportInrushComplete (i : SlotIx) (h : Evolves s t) : Evolves s (reportInrushComplete i t) := by
  simp (maxDischargeDepth := 12) [Machine.reportInrushComplete, h]

@[simp] theorem reportLinkDrop (i : SlotIx) (h : Evolves s t) : Evolves s (reportLinkDrop i t) := by
  simp (maxDischargeDepth := 12) [Machine.reportLinkDrop, h]

@[simp] theorem reportLinkTrain (i : SlotIx) (h : Evolves s t) : Evolves s (reportLinkTrain i t) := by
  simp (maxDischargeDepth := 12) [Machine.reportLinkTrain, h]

@[simp] theorem reportLinkUp (i : SlotIx) (h : Evolves s t) : Evolves s (reportLinkUp i t) := by
  unfold Machine.reportLinkUp
  split <;> simp (maxDischargeDepth := 12) [h]

@[simp] theorem reportControlTimeout (i : SlotIx) (h : Evolves s t) : Evolves s (reportControlTimeout i t) := by
  unfold Machine.reportControlTimeout
  split <;> simp (maxDischargeDepth := 12) [h]

@[simp] theorem reportBulkFault (i : SlotIx) (k : FaultKind) (h : Evolves s t) : Evolves s (reportBulkFault i k t) := by
  simp [Machine.reportBulkFault, h]

@[simp] theorem reportStall (i : SlotIx) (d : Nat) (h : Evolves s t) : Evolves s (reportStall i d t) := by
  simp [Machine.reportStall, h]

@[simp] theorem reportBulkComplete (i : SlotIx) (h : Evolves s t) : Evolves s (reportBulkComplete i t) := by
  simp [Machine.reportBulkComplete, h]

@[simp] theorem setRateRefused (i : SlotIx) (c : RateCode) (h : Evolves s t) : Evolves s (setRateRefused i c t) := by
  simp (maxDischargeDepth := 12) [Machine.setRateRefused, h]

@[simp] theorem reportOk (i : SlotIx) (r : ControlReq) (d : Bytes) (h : Evolves s t) : Evolves s (reportOk i r d t) := by
  unfold Machine.reportOk
  split <;> simp (maxDischargeDepth := 12) [h]

@[simp] theorem reportRefused (i : SlotIx) (r : ControlReq) (c : Nat) (h : Evolves s t) :
    Evolves s (reportRefused i r c t) := by
  unfold Machine.reportRefused
  split <;> simp (maxDischargeDepth := 12) [h]

/-! ### Exchanges, windows and return frames -/

@[simp] theorem miss (i : SlotIx) (h : Evolves s t) : Evolves s (miss i t) := by simp (maxDischargeDepth := 12) [Machine.miss, h]

@[simp] theorem concludeExchange (b : SlotIx → Bool) (i : SlotIx) (h : Evolves s t) : Evolves s (concludeExchange b i t) := by
  simp (maxDischargeDepth := 12) [Machine.concludeExchange, h]

/-- R71: an event that may be an exchange start touches what its action touches, whatever the cards are sending. -/
theorem atExchangeStart (act : (SlotIx → Bool) → State → State) (hact : ∀ l u, Evolves s u → Evolves s (act l u)) (h : Evolves s t) :
    Evolves s (atExchangeStart act t) := hact _ _ (choices _ h)

@[simp] theorem startExchange (i : SlotIx) (f : OutFlag) (b : Bytes) (h : Evolves s t) :
    Evolves s (startExchange i f b t) := by simp (maxDischargeDepth := 12) [Machine.startExchange, h]

@[simp] theorem goodExchange (i : SlotIx) (b : Bytes) (h : Evolves s t) : Evolves s (goodExchange i b t) := by
  simp (maxDischargeDepth := 12) [Machine.goodExchange, h]

@[simp] theorem startBuilt (f : OutFlag) (b : Bytes) (i : SlotIx) (h : Evolves s t) : Evolves s (startBuilt f b i t) := by
  simp (maxDischargeDepth := 12) [Machine.startBuilt, h]

@[simp] theorem startHold (i : SlotIx) (h : Evolves s t) : Evolves s (startHold i t) := by simp (maxDischargeDepth := 12) [Machine.startHold, h]

@[simp] theorem goVacant (i : SlotIx) (h : Evolves s t) : Evolves s (goVacant i t) := by
  simp (maxDischargeDepth := 12) [Machine.goVacant, reportVacant, h]

@[simp] theorem markWindows (i : SlotIx) (h : Evolves s t) : Evolves s (markWindows i t) := by
  simp (maxDischargeDepth := 12) [Machine.markWindows, goLive, h]

@[simp] theorem recheckAfter (l : List SlotIx) (b : State) (h : Evolves s t) : Evolves s (recheckAfter l b t) := by
  simp (maxDischargeDepth := 12) [Machine.recheckAfter, h]

theorem recordStatus (h : Evolves s t) : Evolves s (recordStatus t) := eachSlot _ (fun i _ => modMap i _) h

@[simp] theorem startFrame (h : Evolves s t) : Evolves s (startFrame t) := by simp (maxDischargeDepth := 12) [Machine.startFrame, h]

@[simp] theorem kick (h : Evolves s t) : Evolves s (kick t) := by simp (maxDischargeDepth := 12) [Machine.kick, h]

@[simp] theorem buildReturn (b : Bool) (h : Evolves s t) : Evolves s (buildReturn b t) := by
  simp (maxDischargeDepth := 12) [Machine.buildReturn, recordStatus h]

@[simp] theorem markTrunk (n : Nat) (h : Evolves s t) : Evolves s (markTrunk n t) := by simp (maxDischargeDepth := 12) [Machine.markTrunk, h]

@[simp] theorem cycleMark (l : SlotIx → Bool) (n : Nat) (v : Bool) (b : Bytes) (h : Evolves s t) :
    Evolves s (cycleMark l n v b t) := by
  unfold Machine.cycleMark
  exact buildReturn _ (eachSlot _ (fun i _ => startBuilt _ _ i) (retained _ (recheckAfter _ _
    (forList _ _ (fun i _ => markWindows i) (eachSlot _ (fun i _ => concludeExchange _ i) (markTrunk n h))))))

@[simp] theorem badFrame (l : SlotIx → Bool) (h : Evolves s t) : Evolves s (badFrame l t) := by
  have h1 : Evolves s (Machine.modTrunk (fun t => { t with rejected := true }) t) := by simp (maxDischargeDepth := 12) [h]
  unfold Machine.badFrame
  dsimp only
  split
  · exact buildReturn _ h1
  · exact buildReturn _ (eachSlot _ (fun i _ => startHold i) (eachSlot _ (fun i _ => concludeExchange _ i) h1))

@[simp] theorem takeCycleFrame (b : Bytes) (l : SlotIx → Bool) (h : Evolves s t) : Evolves s (takeCycleFrame b l t) := by
  simp (maxDischargeDepth := 12) [Machine.takeCycleFrame, h]

@[simp] theorem localTick (l : SlotIx → Bool) (h : Evolves s t) : Evolves s (localTick l t) := by
  unfold Machine.localTick
  exact eachSlot _ (fun i _ => startBuilt _ _ i) (recheckAfter _ _ (forList _ _ (fun i _ => goVacant i)
    (eachSlot _ (fun i _ => concludeExchange _ i) h)))

@[simp] theorem cycleLost (h : Evolves s t) : Evolves s (cycleLost t) := by simp (maxDischargeDepth := 12) [Machine.cycleLost, h]

@[simp] theorem lossExpired (h : Evolves s t) : Evolves s (lossExpired t) := by simp (maxDischargeDepth := 12) [Machine.lossExpired, h]

@[simp] theorem tickExpired (h : Evolves s t) : Evolves s (tickExpired t) := by
  unfold Machine.tickExpired
  split
  · exact h
  · exact atExchangeStart _ (fun l _ => localTick l) h

@[simp] theorem gapEnds (h : Evolves s t) : Evolves s (gapEnds t) := by
  unfold Machine.gapEnds
  split <;> simp (maxDischargeDepth := 12) [h]

/-! ### The events at a slot's power -/

@[simp] theorem lineAsserts (i : SlotIx) (h : Evolves s t) : Evolves s (lineAsserts i t) := by simp (maxDischargeDepth := 12) [Machine.lineAsserts, h]

@[simp] theorem lineDrops (i : SlotIx) (h : Evolves s t) : Evolves s (lineDrops i t) := by simp (maxDischargeDepth := 12) [Machine.lineDrops, h]

@[simp] theorem presentExpired (i : SlotIx) (h : Evolves s t) : Evolves s (presentExpired i t) := by
  simp (maxDischargeDepth := 12) [Machine.presentExpired, h]

@[simp] theorem absentExpired (i : SlotIx) (h : Evolves s t) : Evolves s (absentExpired i t) := by
  simp (maxDischargeDepth := 12) [Machine.absentExpired, h]

@[simp] theorem inrushComplete (i : SlotIx) (h : Evolves s t) : Evolves s (inrushComplete i t) :=
  besidePass _ _ (fun _ => reportInrushComplete i) (freeAllowance i (modPower i _ h))

@[simp] theorem minimumExpired (i : SlotIx) (h : Evolves s t) : Evolves s (minimumExpired i t) := by
  simp (maxDischargeDepth := 12) [Machine.minimumExpired, h]

@[simp] theorem powerGoodSeen (i : SlotIx) (h : Evolves s t) : Evolves s (powerGoodSeen i t) := by
  simp (maxDischargeDepth := 12) [Machine.powerGoodSeen, h]

@[simp] theorem deadlineExpired (i : SlotIx) (h : Evolves s t) : Evolves s (deadlineExpired i t) := by
  unfold Machine.deadlineExpired
  split
  · exact h
  · exact besidePass _ _ (fun u hu => by simp (maxDischargeDepth := 12) [reportPowerGoodTimeout, hu]) (switchOff i h)

@[simp] theorem tripped (i : SlotIx) (h : Evolves s t) : Evolves s (tripped i t) := by
  unfold Machine.tripped
  split
  · exact besidePass _ _ (fun _ => reportTrip i) (leaveQueue i (switchOff i h))
  · exact h

@[simp] theorem runPhaseExpired (i : SlotIx) (h : Evolves s t) : Evolves s (runPhaseExpired i t) := by
  unfold Machine.runPhaseExpired
  split
  · exact h
  · exact besidePass _ _ (fun _ => runPhaseEnded i) (freeAllowance i (modPower i _ h))

/-! ### The events at a slot link -/

@[simp] theorem echoFailed (i : SlotIx) (h : Evolves s t) : Evolves s (echoFailed i t) := by simp (maxDischargeDepth := 12) [Machine.echoFailed, h]

@[simp] theorem attemptPassed (i : SlotIx) (h : Evolves s t) : Evolves s (attemptPassed i t) := by
  unfold Machine.attemptPassed
  split <;> simp (maxDischargeDepth := 12) [h]

@[simp] theorem receiveEcho (i : SlotIx) (m : Option LinkFrame) (h : Evolves s t) : Evolves s (receiveEcho i m t) := by
  simp (maxDischargeDepth := 12) [Machine.receiveEcho, echoCounted, h]

@[simp] theorem nextAttempt (i : SlotIx) (c : RateCode) (n : Nat) (h : Evolves s t) : Evolves s (nextAttempt i c n t) := by
  simp (maxDischargeDepth := 12) [Machine.nextAttempt, h]

@[simp] theorem trainingFailed (i : SlotIx) (h : Evolves s t) : Evolves s (trainingFailed i t) := by
  simp (maxDischargeDepth := 12) [Machine.trainingFailed, h]

@[simp] theorem attemptFailed (i : SlotIx) (h : Evolves s t) : Evolves s (attemptFailed i t) := by
  unfold Machine.attemptFailed
  split <;> simp (maxDischargeDepth := 12) [h]

@[simp] theorem echoWaitExpired (i : SlotIx) (h : Evolves s t) : Evolves s (echoWaitExpired i t) := by
  simp (maxDischargeDepth := 12) [Machine.echoWaitExpired, h]

@[simp] theorem receiveControl (i : SlotIx) (r : ControlReq) (n : Nat) (m : Option LinkFrame) (h : Evolves s t) :
    Evolves s (receiveControl i r n m t) := by
  unfold Machine.receiveControl
  split
  · exact h
  · unfold handReply
    split <;> simp (maxDischargeDepth := 12) [h]

@[simp] theorem controlAnswerExpired (i : SlotIx) (h : Evolves s t) : Evolves s (controlAnswerExpired i t) := by
  unfold Machine.controlAnswerExpired
  split
  · exact h
  · split <;> simp (maxDischargeDepth := 12) [h]

@[simp] theorem resendPacket (i : SlotIx) (b : Bulk) (h : Evolves s t) : Evolves s (resendPacket i b t) := by
  simp (maxDischargeDepth := 12) [Machine.resendPacket, h]

@[simp] theorem packetAcknowledged (i : SlotIx) (b : Bulk) (h : Evolves s t) : Evolves s (packetAcknowledged i b t) := by
  simp (maxDischargeDepth := 12) [Machine.packetAcknowledged, h]

@[simp] theorem receiveBulk (i : SlotIx) (b : Bulk) (m : Option LinkFrame) (h : Evolves s t) :
    Evolves s (receiveBulk i b m t) := by
  unfold Machine.receiveBulk
  split
  · exact h
  · split <;> simp (maxDischargeDepth := 12) [packetDelayed, packetRefused, h]

@[simp] theorem bulkAnswerExpired (i : SlotIx) (h : Evolves s t) : Evolves s (bulkAnswerExpired i t) := by
  unfold Machine.bulkAnswerExpired
  split <;> simp (maxDischargeDepth := 12) [h]

@[simp] theorem backoffExpired (i : SlotIx) (h : Evolves s t) : Evolves s (backoffExpired i t) := by
  unfold Machine.backoffExpired
  split <;> simp (maxDischargeDepth := 12) [h]

@[simp] theorem bulkWaitExpired (i : SlotIx) (h : Evolves s t) : Evolves s (bulkWaitExpired i t) := by
  unfold Machine.bulkWaitExpired
  split <;> simp (maxDischargeDepth := 12) [h]

@[simp] theorem receiveCyclic (i : SlotIx) (m : Option LinkFrame) (h : Evolves s t) : Evolves s (receiveCyclic i m t) := by
  unfold Machine.receiveCyclic
  split <;> simp (maxDischargeDepth := 12) [h]

@[simp] theorem deliver (i : SlotIx) (m : Option LinkFrame) (h : Evolves s t) : Evolves s (deliver i m t) := by
  unfold Machine.deliver
  split
  · exact h
  · exact h
  · simp (maxDischargeDepth := 12) [h]
  · unfold receiveUp
    split <;> simp (maxDischargeDepth := 12) [h]

@[simp] theorem receive (i : SlotIx) (m : Bytes) (h : Evolves s t) : Evolves s (receive i m t) := by
  simp (maxDischargeDepth := 12) [Machine.receive, h]

@[simp] theorem absenceExpired (i : SlotIx) (h : Evolves s t) : Evolves s (absenceExpired i t) := by
  simp (maxDischargeDepth := 12) [Machine.absenceExpired, h]

end Evolves

end Sys2Proof.Machine
end

