-- ==== Sys2Proof/Laws/Beside.lean ====
section
/-! SUPPORT. What the two things that may happen beside an event at one slot can do: an arbitration pass (R47) and the admission
re-checks (R160). A pass touches only slots with an entry in the queue, a re-check only slots in READY with the hold flag clear. -/

namespace Sys2Proof.Machine

/-- What a pass may do between `s` and `t`, and where `checks` holds a re-check too. -/
structure Beside (checks : Prop) (s t : State) : Prop where
  evolves : Evolves s t
  trunk : t.trunk = s.trunk
  retained : t.retained = s.retained
  store : t.store = s.store
  map : ∀ j, t.map j = s.map j
  slots : ∀ j, t.slot j = s.slot j ∨ (∃ e ∈ s.power.queue, e.slot = j) 
    ∨ (checks ∧ (s.ctx j).state = .ready ∧ (s.ctx j).hold = false)
  ready : ∀ j, (t.ctx j).state = .ready → (s.ctx j).state = .ready ∧ (s.ctx j).hold = (t.ctx j).hold
  queue : ∀ e ∈ t.power.queue, ∃ e' ∈ s.power.queue, e'.slot = e.slot

namespace Beside

variable {checks : Prop}

theorem refl (s : State) : Beside checks s s :=
  ⟨.refl s, rfl, rfl, rfl, fun _ => rfl, fun _ => .inl rfl, fun _ h => ⟨h, rfl⟩, fun e h => ⟨e, h, rfl⟩⟩

theorem trans {s t u : State} (a : Beside checks s t) (b : Beside checks t u) : Beside checks s u := by
  refine ⟨a.evolves.trans b.evolves, b.trunk.trans a.trunk, b.retained.trans a.retained, b.store.trans a.store,
    fun j => (b.map j).trans (a.map j), fun j => ?_, fun j h => ?_, fun e h => ?_⟩
  · rcases b.slots j with h | ⟨e, h, rfl⟩ | ⟨hc, h, h'⟩
    · rw [h]; exact a.slots j
    · obtain ⟨e', h, e⟩ := a.queue e h
      exact .inr (.inl ⟨e', h, e⟩)
    · obtain ⟨h₁, h₂⟩ := a.ready j h
      exact .inr (.inr ⟨hc, h₁, h₂.trans h'⟩)
  · obtain ⟨h₁, h₂⟩ := b.ready j h
    obtain ⟨h₃, h₄⟩ := a.ready j h₁
    exact ⟨h₃, h₄.trans h₂⟩
  · obtain ⟨e', h, e⟩ := b.queue e h
    obtain ⟨e'', h, e⟩ := a.queue e' h
    exact ⟨e'', h, by simp_all⟩

theorem weaken {s t : State} (h : Beside False s t) : Beside checks s t :=
  { h with slots := fun j => (h.slots j).imp_right (Or.imp_right fun c => c.1.elim) }

/-- A slot with no queue entry that is not checked, being not in READY or held, is left alone. -/
theorem slot {s t : State} (h : Beside checks s t) (i : SlotIx) (hq : ∀ e ∈ s.power.queue, e.slot ≠ i)
    (hr : checks → (s.ctx i).state = .ready → (s.ctx i).hold = true) : t.slot i = s.slot i := by
  rcases h.slots i with e | ⟨e, he, hi⟩ | ⟨hc, h₁, h₂⟩
  · exact e
  · exact absurd hi (hq e he)
  · rw [hr hc h₁] at h₂; cases h₂

theorem noEntry {s t : State} (h : Beside checks s t) {i : SlotIx} (hq : ∀ e ∈ s.power.queue, e.slot ≠ i) :
    ∀ e ∈ t.power.queue, e.slot ≠ i := by
  intro e he
  obtain ⟨e', h', hs⟩ := h.queue e he
  exact hs ▸ hq e' h'

/-! ### Passes -/

theorem passOver {e : PowerEntry} (s : State) : Beside checks s (passOver e s) := by
  by_cases h : e.passedOver = true
  · rw [show Machine.passOver e s = s from if_pos h]
    exact .refl s
  · rw [show Machine.passOver e s = modRack _ _ from if_neg h]
    refine ⟨.modRack _ (fun _ => rfl) (.post _ _ (.refl s)), rfl, rfl, rfl, fun _ => rfl, fun _ => .inl rfl,
      fun _ h => ⟨h, rfl⟩, fun x hx => ?_⟩
    simp only [modRack_power, List.mem_map] at hx
    obtain ⟨y, hy, rfl⟩ := hx
    refine ⟨y, hy, ?_⟩
    split <;> rfl

theorem sendNow_frame (i : SlotIx) (x : NextSend) (s : State) :
    (sendNow i x s).power = s.power ∧ (sendNow i x s).trunk = s.trunk ∧ (sendNow i x s).store = s.store
      ∧ (sendNow i x s).retained = s.retained ∧ (sendNow i x s).events = s.events
      ∧ (∀ j, (sendNow i x s).ctx j = s.ctx j) ∧ (∀ j, (sendNow i x s).map j = s.map j)
      ∧ (∀ j, (sendNow i x s).slotPower j = s.slotPower j) ∧ (∀ j, (sendNow i x s).expected j = s.expected j)
      ∧ ∀ j, j ≠ i → (sendNow i x s).slot j = s.slot j := by
  unfold sendNow
  exact ⟨rfl, rfl, rfl, rfl, rfl, fun j => by simp, fun j => by simp, fun j => by simp, fun j => by simp,
    fun j h => modLink_slot_ne _ _ h⟩

/-- Sending touches the link engine of the slot alone. -/
theorem send_frame (i : SlotIx) (x : NextSend) (s : State) :
    (send i x s).power = s.power ∧ (send i x s).trunk = s.trunk ∧ (send i x s).store = s.store
      ∧ (send i x s).retained = s.retained ∧ (send i x s).events = s.events
      ∧ (∀ j, (send i x s).ctx j = s.ctx j) ∧ (∀ j, (send i x s).map j = s.map j)
      ∧ (∀ j, (send i x s).slotPower j = s.slotPower j) ∧ (∀ j, (send i x s).expected j = s.expected j)
      ∧ ∀ j, j ≠ i → (send i x s).slot j = s.slot j := by
  unfold send
  split
  · exact ⟨rfl, rfl, rfl, rfl, rfl, fun j => by simp, fun j => by simp, fun j => by simp, fun j => by simp,
      fun j h => modLink_slot_ne _ _ h⟩
  · exact sendNow_frame i x s

theorem grant {e : PowerEntry} (s : State) (he : ∃ e' ∈ s.power.queue, e'.slot = e.slot) : Beside checks s (grant e s) := by
  have hq : ∀ x ∈ (Machine.grant e s).power.queue, ∃ e' ∈ s.power.queue, e'.slot = x.slot := by
    intro x hx
    have : x ∈ s.power.queue.filter fun y => decide (y.slot ≠ e.slot) := by
      unfold Machine.grant at hx
      dsimp only at hx
      split at hx
      · exact hx
      · rw [show grantRun e.slot _ = send e.slot _ _ from rfl, (send_frame _ _ _).1] at hx
        exact hx
    exact ⟨x, (List.mem_filter.1 this).1, rfl⟩
  have hne : ∀ j, j ≠ e.slot → (Machine.grant e s).slot j = s.slot j := by
    intro j h
    unfold Machine.grant
    dsimp only
    split
    · rw [show grantStandby e.slot _ = modCtx e.slot _ (modPower e.slot _ _) from rfl, modCtx_slot_ne _ _ h, modPower_slot_ne _ _ h]
      rfl
    · rw [show grantRun e.slot _ = send e.slot _ _ from rfl, (send_frame _ _ _).2.2.2.2.2.2.2.2.2 j h, modCtx_slot_ne _ _ h]
      rfl
  have hst : ((Machine.grant e s).ctx e.slot).state ≠ .ready := by
    unfold Machine.grant
    dsimp only
    split
    · simp [grantStandby]
    · rw [show grantRun e.slot _ = send e.slot _ _ from rfl, (send_frame _ _ _).2.2.2.2.2.1]
      simp
  have hfr : (Machine.grant e s).trunk = s.trunk ∧ (Machine.grant e s).retained = s.retained
      ∧ (Machine.grant e s).store = s.store ∧ ∀ j, (Machine.grant e s).map j = s.map j := by
    unfold Machine.grant
    dsimp only
    split
    · exact ⟨rfl, rfl, rfl, fun j => by simp [grantStandby, leaveQueue]⟩
    · rw [show grantRun e.slot _ = send e.slot _ _ from rfl]
      obtain ⟨-, h₂, h₃, h₄, -, -, h₇, -⟩ := send_frame e.slot (.request .enableRun) (modCtx e.slot
        (fun c => { c with state := .runInrush, reason := none, heldDraw := c.runDraw })
        (modRack (fun p => { p with committed := p.committed + e.increase, owner := some e.slot }) (leaveQueue e.slot s)))
      exact ⟨h₂, h₄, h₃, fun j => by rw [h₇ j]; simp [leaveQueue]⟩
  refine ⟨.grant e (.refl s), hfr.1, hfr.2.1, hfr.2.2.1, hfr.2.2.2, fun j => ?_, fun j h => ?_, hq⟩
  · by_cases h : j = e.slot
    · subst h; exact .inr (.inl he)
    · exact .inl (hne j h)
  · by_cases hj : j = e.slot
    · subst hj; exact absurd h hst
    · have : (Machine.grant e s).ctx j = s.ctx j := congrArg Slot.ctx (hne j hj)
      rw [this] at h ⊢
      exact ⟨h, rfl⟩

theorem examine (l : List PowerEntry) (s : State) (hl : ∀ e ∈ l, ∃ e' ∈ s.power.queue, e'.slot = e.slot) :
    Beside checks s (examine l s) := by
  induction l generalizing s with
  | nil => exact .refl s
  | cons e l ih =>
    unfold Machine.examine
    split
    · exact grant s (hl e (List.mem_cons_self ..))
    · refine (passOver s).trans (ih _ fun x hx => ?_)
      obtain ⟨y, hy, hs⟩ := hl x (List.mem_cons_of_mem _ hx)
      unfold Machine.passOver
      split
      · exact ⟨y, hy, hs⟩
      · refine ⟨_, List.mem_map_of_mem hy, ?_⟩
        split <;> exact hs

/-- R46: queue order holds the entries of the queue. -/
theorem mem_queueOrder (q : List PowerEntry) (e : PowerEntry) : e ∈ queueOrder q ↔ e ∈ q := by
  unfold queueOrder
  simp only [List.mem_append, List.mem_filter, decide_eq_true_eq]
  constructor
  · rintro (h | h) <;> exact h.1
  · intro h
    cases hp : e.priority
    · exact .inr ⟨h, rfl⟩
    · exact .inl ⟨h, rfl⟩

theorem pass (s : State) : Beside checks s (pass s) := by
  unfold Machine.pass
  split
  · exact .refl s
  · exact examine _ s fun e he => ⟨e, (mem_queueOrder _ _).1 he, rfl⟩

/-! ### Re-checks -/

theorem post (i : Option SlotIx) (b : EventBody) (s : State) : Beside checks s (post i b s) :=
  ⟨.post i b (.refl s), rfl, rfl, rfl, fun _ => rfl, fun _ => .inl rfl, fun _ h => ⟨h, rfl⟩, fun e h => ⟨e, h, rfl⟩⟩

theorem choices (n : Nat) (s : State) : Beside checks s { s with choices := n } :=
  ⟨.choices n (.refl s), rfl, rfl, rfl, fun _ => rfl, fun _ => .inl rfl, fun _ h => ⟨h, rfl⟩, fun e h => ⟨e, h, rfl⟩⟩

theorem tryAdmit (i : SlotIx) (s : State) : Beside True s (tryAdmit i s) := by
  unfold Machine.tryAdmit
  split
  · rename_i h
    obtain ⟨h₁, h₂, -⟩ := h
    split
    · rename_i r _
      have hb : Beside True s (modCtx i (fun c => { c with state := .ready, reason := some r.reason }) s) := by
        refine ⟨.modCtx i _ (.refl s), rfl, rfl, rfl, fun j => by simp, fun j => ?_, fun j h => ?_, fun e h => ⟨e, h, rfl⟩⟩
        · by_cases e : j = i
          · subst e; exact .inr (.inr ⟨trivial, h₁, h₂⟩)
          · exact .inl (modCtx_slot_ne _ _ e)
        · by_cases e : j = i
          · subst e; exact ⟨h₁, by simp⟩
          · rw [modCtx_ctx_ne _ _ e] at h ⊢
            exact ⟨h, rfl⟩
      unfold refuseAdmission
      dsimp only
      split
      · exact hb
      · exact hb.trans (post _ _ _)
    · refine ⟨.send i _ (.modCtx i _ (.refl s)), ?_, ?_, ?_, fun j => ?_, fun j => ?_, fun j h => ?_, fun e h => ⟨e, ?_, rfl⟩⟩
      · exact (send_frame ..).2.1
      · exact (send_frame ..).2.2.2.1
      · exact (send_frame ..).2.2.1
      · rw [(send_frame ..).2.2.2.2.2.2.1]; simp
      · by_cases e : j = i
        · subst e; exact .inr (.inr ⟨trivial, h₁, h₂⟩)
        · rw [(send_frame ..).2.2.2.2.2.2.2.2.2 j e]
          exact .inl (modCtx_slot_ne _ _ e)
      · rw [(send_frame ..).2.2.2.2.2.1] at h ⊢
        by_cases e : j = i
        · subst e; simp at h
        · rw [modCtx_ctx_ne _ _ e] at h ⊢
          exact ⟨h, rfl⟩
      · rw [(send_frame ..).1] at h
        exact h
  · exact .refl s

theorem foldl {α : Type} (act : State → α → State) (hact : ∀ t a, Beside checks t (act t a)) (l : List α) (s : State) :
    Beside checks s (l.foldl act s) := by
  induction l generalizing s with
  | nil => exact .refl s
  | cons a l ih => exact (hact s a).trans (ih _)

theorem recheckAll (s : State) : Beside True s (recheckAll s) := by
  unfold Machine.recheckAll forList
  exact (choices _ s).trans (foldl _ (fun t i => tryAdmit i t) _ _)

theorem recheckIf (due : Bool) (s : State) : Beside True s (recheckIf due s) := by
  unfold Machine.recheckIf
  split
  · exact recheckAll s
  · exact .refl s

end Beside

end Sys2Proof.Machine
end

