-- ==== Sys2Proof/Laws/PerInstr.lean ====
section
/-! SUPPORT. The statements made for each command by itself. -/

namespace Sys2Proof.Laws.WordFree

/-- No word spells the command: its row of spec/opcode_table.json gives no bits. -/
def Statement (i : Instr) : Prop := ∀ nbits w : Nat, decodeTableWord nbits w ≠ some i

theorem powerOn : Statement (.powerOn) := nofun
theorem segIdent (tag target : Byte) (length : BitVec 16) (payload : Bytes) : Statement (.segIdent tag target length payload) := nofun
theorem segCycle (tag target : Byte) (length : BitVec 16) (payload : Bytes) : Statement (.segCycle tag target length payload) := nofun
theorem segBudget (tag target : Byte) (length : BitVec 16) (payload : Bytes) : Statement (.segBudget tag target length payload) := nofun
theorem segAttn (tag target : Byte) (length : BitVec 16) (payload : Bytes) : Statement (.segAttn tag target length payload) := nofun
theorem segReset (tag target : Byte) (length : BitVec 16) (payload : Bytes) : Statement (.segReset tag target length payload) := nofun
theorem expLoad (tag target : Byte) (length : BitVec 16) (payload : Bytes) : Statement (.expLoad tag target length payload) := nofun
theorem expClear (tag target : Byte) (length : BitVec 16) (payload : Bytes) : Statement (.expClear tag target length payload) := nofun
theorem expRead (tag target : Byte) (length : BitVec 16) (payload : Bytes) : Statement (.expRead tag target length payload) := nofun
theorem psetOpen (tag target : Byte) (length : BitVec 16) (payload : Bytes) : Statement (.psetOpen tag target length payload) := nofun
theorem psetWrite (tag target : Byte) (length : BitVec 16) (payload : Bytes) : Statement (.psetWrite tag target length payload) := nofun
theorem psetClose (tag target : Byte) (length : BitVec 16) (payload : Bytes) : Statement (.psetClose tag target length payload) := nofun
theorem psetDrop (tag target : Byte) (length : BitVec 16) (payload : Bytes) : Statement (.psetDrop tag target length payload) := nofun
theorem psetRead (tag target : Byte) (length : BitVec 16) (payload : Bytes) : Statement (.psetRead tag target length payload) := nofun
theorem psetList (tag target : Byte) (length : BitVec 16) (payload : Bytes) : Statement (.psetList tag target length payload) := nofun
theorem slotRead (tag target : Byte) (length : BitVec 16) (payload : Bytes) : Statement (.slotRead tag target length payload) := nofun
theorem slotHold (tag target : Byte) (length : BitVec 16) (payload : Bytes) : Statement (.slotHold tag target length payload) := nofun
theorem slotRelease (tag target : Byte) (length : BitVec 16) (payload : Bytes) : Statement (.slotRelease tag target length payload) := nofun
theorem slotRestart (tag target : Byte) (length : BitVec 16) (payload : Bytes) : Statement (.slotRestart tag target length payload) := nofun
theorem slotWithdraw (tag target : Byte) (length : BitVec 16) (payload : Bytes) : Statement (.slotWithdraw tag target length payload) := nofun
theorem mapRead (tag target : Byte) (length : BitVec 16) (payload : Bytes) : Statement (.mapRead tag target length payload) := nofun
theorem evtRead (tag target : Byte) (length : BitVec 16) (payload : Bytes) : Statement (.evtRead tag target length payload) := nofun
theorem unknownRequest (tag code target : Byte) (length : BitVec 16) (payload : Bytes) : Statement (.unknownRequest tag code target length payload) := nofun
theorem serviceRequestArrival (frame : Bytes) : Statement (.serviceRequestArrival frame) := nofun
theorem cycleFrame (frame : Bytes) : Statement (.cycleFrame frame) := nofun
theorem downstreamFrameDiscard (frame : Bytes) : Statement (.downstreamFrameDiscard frame) := nofun
theorem cycleLossTimerExpiry : Statement (.cycleLossTimerExpiry) := nofun
theorem localTick : Statement .localTick := nofun
theorem transmitterFree : Statement (.transmitterFree) := nofun
theorem returnFrameSent : Statement (.returnFrameSent) := nofun
theorem serviceResponseSent : Statement (.serviceResponseSent) := nofun
theorem presenceLineAssert (slot : SlotIx) : Statement (.presenceLineAssert slot) := nofun
theorem presenceLineDrop (slot : SlotIx) : Statement (.presenceLineDrop slot) := nofun
theorem presentTimerExpiry (slot : SlotIx) : Statement (.presentTimerExpiry slot) := nofun
theorem absentTimerExpiry (slot : SlotIx) : Statement (.absentTimerExpiry slot) := nofun
theorem inrushMinimumExpiry (slot : SlotIx) : Statement (.inrushMinimumExpiry slot) := nofun
theorem powerGood (slot : SlotIx) : Statement (.powerGood slot) := nofun
theorem powerGoodTimeout (slot : SlotIx) : Statement (.powerGoodTimeout slot) := nofun
theorem trip (slot : SlotIx) : Statement (.trip slot) := nofun
theorem runPhaseTimerExpiry (slot : SlotIx) : Statement (.runPhaseTimerExpiry slot) := nofun
theorem turnaroundExpiry (slot : SlotIx) : Statement (.turnaroundExpiry slot) := nofun
theorem trainEcho (slot : SlotIx) (message : Bytes) : Statement (.trainEcho slot message) := nofun
theorem echoWaitExpiry (slot : SlotIx) : Statement (.echoWaitExpiry slot) := nofun
theorem trainingAttemptTimeout (slot : SlotIx) : Statement (.trainingAttemptTimeout slot) := nofun
theorem controlAnswer (slot : SlotIx) (message : Bytes) : Statement (.controlAnswer slot message) := nofun
theorem controlAnswerTimeout (slot : SlotIx) : Statement (.controlAnswerTimeout slot) := nofun
theorem bulkAck (slot : SlotIx) (message : Bytes) : Statement (.bulkAck slot message) := nofun
theorem bulkWait (slot : SlotIx) (message : Bytes) : Statement (.bulkWait slot message) := nofun
theorem bulkRefuse (slot : SlotIx) (message : Bytes) : Statement (.bulkRefuse slot message) := nofun
theorem corruptBulkAnswer (slot : SlotIx) (message : Bytes) : Statement (.corruptBulkAnswer slot message) := nofun
theorem bulkAnswerTimeout (slot : SlotIx) : Statement (.bulkAnswerTimeout slot) := nofun
theorem bulkBackoffExpiry (slot : SlotIx) : Statement (.bulkBackoffExpiry slot) := nofun
theorem bulkWaitTimerExpiry (slot : SlotIx) : Statement (.bulkWaitTimerExpiry slot) := nofun
theorem cyclicIn (slot : SlotIx) (message : Bytes) : Statement (.cyclicIn slot message) := nofun
theorem linkMessageDiscard (slot : SlotIx) (message : Bytes) : Statement (.linkMessageDiscard slot message) := nofun
theorem linkAliveChange (slot : SlotIx) (present : Bool) : Statement (.linkAliveChange slot present) := nofun
theorem linkDrop (slot : SlotIx) : Statement (.linkDrop slot) := nofun
theorem slotLinkMessageEnd (slot : SlotIx) : Statement (.slotLinkMessageEnd slot) := nofun

end Sys2Proof.Laws.WordFree
end

