-- ==== Sys2Proof/Laws/Releases.lean ====
section
/-! SUPPORT. Switch-off with releases (R5) and the retry (R20), said once: what the slot they act on becomes, what they leave of every
other slot, and which events they post. -/

namespace Sys2Proof.Machine

/-! ### Events posted -/

/-- An event posted between two moments is among those posted in any longer time that begins at the same cycle number. -/
theorem Posted.extend {slot : Option SlotIx} {body : EventBody} {s t u v : State} (h : Posted slot body t u)
    (a : Evolves s t) (ht : t.trunk.lastCycle = s.trunk.lastCycle) (b : Evolves u v) : Posted slot body s v := by
  rcases h with h | h
  · left
    rw [ht] at h
    obtain ⟨x, hx⟩ := a.events
    obtain ⟨y, hy⟩ := b.events
    rw [← hx] at h
    rw [← hy]
    rw [List.length_append, ← List.drop_drop] at h
    have h₂ := List.mem_of_mem_drop h
    by_cases hl : s.events.events.length ≤ u.events.events.length
    · rw [List.drop_append_of_le_length hl]
      exact List.mem_append_left _ h₂
    · rw [List.drop_of_length_le (by omega)] at h₂
      cases h₂
  · exact .inr (b.lost h)

/-- R190: posting posts. -/
theorem posted_post (slot : Option SlotIx) (body : EventBody) (s : State) : Posted slot body s (post slot body s) := by
  unfold Posted post
  simp only [modEvents_events, EventBlock.append]
  split
  · left; simp
  · right; rfl

/-! ### What an operation does at one slot -/

/-- From `s` to `t` slot `i` has become `x`, and everything else stands but for events, pins and the power account. -/
structure Becomes (i : SlotIx) (x : Slot) (s t : State) : Prop where
  evolves : Evolves s t
  slot : t.slot i = x
  others : ∀ j, j ≠ i → t.slot j = s.slot j
  trunk : t.trunk = s.trunk
  retained : t.retained = s.retained
  queue : ∀ e ∈ t.power.queue, e ∈ s.power.queue

namespace Becomes

variable {i : SlotIx} {x y : Slot} {s t u : State}

theorem refl (i : SlotIx) (s : State) : Becomes i (s.slot i) s s :=
  ⟨.refl s, rfl, fun _ _ => rfl, rfl, rfl, fun _ h => h⟩

theorem trans (a : Becomes i x s t) (b : Becomes i y t u) : Becomes i y s u :=
  ⟨a.evolves.trans b.evolves, b.slot, fun j h => (b.others j h).trans (a.others j h), b.trunk.trans a.trunk,
    b.retained.trans a.retained, fun e h => a.queue e (b.queue e h)⟩

theorem eq (a : Becomes i x s t) (h : x = y) : Becomes i y s t := h ▸ a

theorem modSlot (i : SlotIx) (f : Slot → Slot) (s : State) (hf : (f (s.slot i)).expected = (s.slot i).expected) :
    Becomes i (f (s.slot i)) s (modSlot i f s) := by
  refine ⟨⟨rfl, rfl, fun j => ?_, rfl, rfl, rfl, rfl, rfl, rfl, rfl, rfl, rfl, fun _ => rfl, List.prefix_refl _, id, id⟩,
    modSlot_slot_same .., fun j h => modSlot_slot_ne _ _ h, rfl, rfl, fun _ h => h⟩
  by_cases e : j = i
  · subst e; simp [State.expected, hf]
  · simp [State.expected, modSlot_slot_ne _ _ e]

theorem modCtx (i : SlotIx) (f : Context → Context) (s : State) :
    Becomes i { s.slot i with ctx := f (s.ctx i) } s (modCtx i f s) := modSlot i (fun x => { x with ctx := f x.ctx }) s rfl

theorem modLink (i : SlotIx) (f : LinkEngine → LinkEngine) (s : State) :
    Becomes i { s.slot i with link := f (s.link i) } s (modLink i f s) := modSlot i (fun x => { x with link := f x.link }) s rfl

theorem modPower (i : SlotIx) (f : SlotPower → SlotPower) (s : State) :
    Becomes i { s.slot i with power := f (s.slotPower i) } s (modPower i f s) := modSlot i (fun x => { x with power := f x.power }) s rfl

theorem modMap (i : SlotIx) (f : SlotMap → SlotMap) (s : State) :
    Becomes i { s.slot i with map := f (s.map i) } s (modMap i f s) := modSlot i (fun x => { x with map := f x.map }) s rfl

theorem post (i : SlotIx) (o : Option SlotIx) (b : EventBody) (s : State) : Becomes i (s.slot i) s (post o b s) :=
  ⟨.post _ _ (.refl s), rfl, fun _ _ => rfl, rfl, rfl, fun _ h => h⟩

theorem modRack (i : SlotIx) (f : PowerBlock → PowerBlock) (s : State) (hb : ∀ p, (f p).budget = p.budget)
    (hq : ∀ p, ∀ e ∈ (f p).queue, e ∈ p.queue) : Becomes i (s.slot i) s (modRack f s) :=
  ⟨.modRack _ hb (.refl s), rfl, fun _ _ => rfl, rfl, rfl, fun e h => hq _ e h⟩

theorem send (i : SlotIx) (n : NextSend) (s : State) : Becomes i ((send i n s).slot i) s (send i n s) := by
  obtain ⟨h₁, h₂, -, h₄, -, -, -, -, -, h₁₀⟩ := Beside.send_frame i n s
  exact ⟨.send i n (.refl s), rfl, h₁₀, h₂, h₄, fun e h => by rw [h₁] at h; exact h⟩

end Becomes

/-! ### Switch-off with releases -/

/-- The slot a switch-off with releases leaves. -/
def Slot.givenUp (x : Slot) : Slot :=
  { x with ctx := x.ctx.released, power := x.power.off, link := x.link.gone, map := x.map.released }

theorem disarm_released (m : SlotMap) (h : m.paired) : m.change Window.disarm = m.released := by
  cases m with
  | mk o n tables latest reported =>
    unfold SlotMap.paired at h
    unfold SlotMap.released SlotMap.change
    cases o <;> cases n <;> simp_all [Window.disarm]

/-- R37: what turning a switch off leaves of its slot. -/
theorem switchOff_becomes (i : SlotIx) (s : State)
    (h : (s.slotPower i).switchOn = false → (s.slotPower i).off = s.slotPower i ∧ (s.ctx i).heldDraw = 0) :
    ∃ l : LinkEngine, l.gone = (s.link i).gone ∧ Becomes i { s.slot i with
      ctx := { s.ctx i with heldDraw := 0 }, power := (s.slotPower i).off, link := l } s (switchOff i s) := by
  by_cases hs : (s.slotPower i).switchOn = true
  · rw [show switchOff i s = _ from if_pos hs]
    refine ⟨(s.link i).endExchange, rfl, ?_⟩
    have b₁ := Becomes.modRack i (fun p => { p with committed := p.committed - (s.ctx i).heldDraw }) s (fun _ => rfl)
      (fun _ _ h => h)
    have b₂ := Becomes.modRack i (fun p => { p with owner := if p.owner = some i then none else p.owner })
      (modRack (fun p => { p with committed := p.committed - (s.ctx i).heldDraw }) s) (fun _ => rfl) (fun _ _ h => h)
    have b := b₁.trans b₂
    have b := b.trans (Becomes.modPower i SlotPower.off _)
    have b := b.trans (Becomes.modCtx i (fun c => { c with heldDraw := 0 }) _)
    have b := b.trans (Becomes.modLink i LinkEngine.endExchange _)
    refine b.eq ?_
    simp [State.ctx, State.slotPower, State.link, SlotPower.off]
  · obtain ⟨h₁, h₂⟩ := h (by simpa using hs)
    rw [show switchOff i s = s from if_neg hs]
    refine ⟨s.link i, rfl, (Becomes.refl i s).eq ?_⟩
    rw [h₁, ← h₂]
    rfl

/-- R127: the context's pin, and no other, is released. -/
theorem unpin_becomes (i : SlotIx) (s : State) :
    Becomes i { s.slot i with ctx := { s.ctx i with pinned := none } } s (unpin i s) ∧ Unpinned (s.ctx i).pinned s (unpin i s) := by
  unfold unpin
  split
  · rename_i n hn
    constructor
    · have b := Becomes.modCtx i (fun c => { c with pinned := none }) (modStore (Store.unpin n) s)
      exact ⟨.modCtx i _ (.modStore _ (Evolves.unpin_kept n) (.refl s)), b.slot, b.others, rfl, rfl, fun _ h => h⟩
    · intro m
      simp only [modCtx_store, modStore_store, Store.unpin, Store.set, Store.setRecord]
      by_cases h : n = m
      · subst h; simp [hn]
      · rw [if_neg (by rw [hn]; simpa using h)]
        have h' : n.val ≠ m.val := fun e => h (Fin.ext e)
        simp [h']
  · rename_i hn
    constructor
    · refine (Becomes.refl i s).eq ?_
      rw [← hn]
      rfl
    · intro m; simp [hn]

theorem leaveQueue_becomes (i : SlotIx) (s : State) :
    Becomes i (s.slot i) s (leaveQueue i s) ∧ ∀ e ∈ (leaveQueue i s).power.queue, e.slot ≠ i := by
  constructor
  · exact .modRack i _ s (fun _ => rfl) (fun _ _ h => (List.mem_filter.1 h).1)
  · intro e h
    have := (List.mem_filter.1 h).2
    simpa using this

/-- R5: switch-off with releases. -/
theorem releases_becomes (i : SlotIx) (s : State)
    (h : (s.slotPower i).switchOn = false → (s.slotPower i).off = s.slotPower i ∧ (s.ctx i).heldDraw = 0)
    (hm : (s.map i).paired) :
    Becomes i (s.slot i).givenUp s (releases i s) ∧ (∀ e ∈ (releases i s).power.queue, e.slot ≠ i)
      ∧ Unpinned (s.ctx i).pinned s (releases i s) := by
  obtain ⟨b₁, hq⟩ := leaveQueue_becomes i s
  obtain ⟨l, hl, b₂⟩ := switchOff_becomes i (leaveQueue i s) h
  obtain ⟨b₃, hu⟩ := unpin_becomes i (switchOff i (leaveQueue i s))
  have b₄ := b₃.trans (Becomes.modLink i LinkEngine.down _)
  have b₅ := b₄.trans (Becomes.modCtx i (fun c => { c with progress := none, walk := none, download := none }) _)
  have b₆ := b₅.trans (Becomes.modMap i (SlotMap.change Window.disarm) _)
  refine ⟨(b₁.trans (b₂.trans b₆)).eq ?_, fun e he => hq e ((b₂.trans b₆).queue e he), fun n => ?_⟩
  · have e₃ : (unpin i (switchOff i (leaveQueue i s))).slot i = _ := b₃.slot
    have e₂ : (switchOff i (leaveQueue i s)).slot i = _ := b₂.slot
    have hd : l.down = (s.link i).gone := hl
    have hm' := disarm_released _ hm
    simp only [State.map] at hm'
    have hs : (leaveQueue i s).slot i = s.slot i := rfl
    simp [State.map, State.ctx, State.link, State.slotPower, e₃, e₂, hd, hs, hm', Slot.givenUp, Context.released]
  · have e₁ : (releases i s).store.set n = (unpin i (switchOff i (leaveQueue i s))).store.set n := rfl
    have e₂ : (switchOff i (leaveQueue i s)).store = s.store := by
      unfold switchOff; split <;> rfl
    have e₃ : ((switchOff i (leaveQueue i s)).ctx i).pinned = (s.ctx i).pinned := by
      have := congrArg (fun x : Slot => x.ctx.pinned) b₂.slot
      exact this
    have := hu n
    rw [e₃, e₂] at this
    rw [e₁, this]

/-- What `withReleases` answers, whichever way the pass is taken. -/
theorem withReleases_cases (i : SlotIx) (finish : State → State) (s : State) :
    ∃ u w : State, Beside False (releases i s) u ∧ Beside True (finish u) w ∧ withReleases i finish s = w := by
  unfold withReleases besidePass
  split
  · unfold eitherOrder
    dsimp only
    split
    · exact ⟨_, _, (Beside.choices _ _).trans (Beside.pass _), Beside.recheckIf _ _, rfl⟩
    · exact ⟨_, _, Beside.choices _ _, (Beside.recheckIf _ _).trans (Beside.pass _), rfl⟩
  · exact ⟨_, _, Beside.refl _, Beside.recheckIf _ _, rfl⟩

/-- R5: switch-off with releases and what the context then does, when that leaves the slot out of READY: the slot is what `finish` makes
of the slot given up, its queue entry and pin are gone, and beside it only waiting slots may have changed. -/
theorem withReleases_gives (i : SlotIx) (finish : State → State) (x : Slot) (s : State)
    (h : (s.slotPower i).switchOn = false → (s.slotPower i).off = s.slotPower i ∧ (s.ctx i).heldDraw = 0)
    (hm : (s.map i).paired) (hx : x.ctx.state ≠ .ready)
    (hf : ∀ t, t.slot i = (s.slot i).givenUp → Becomes i x t (finish t) ∧ (finish t).store = t.store) :
    (withReleases i finish s).slot i = x ∧ (∀ e ∈ (withReleases i finish s).power.queue, e.slot ≠ i)
      ∧ Unpinned (s.ctx i).pinned s (withReleases i finish s) ∧ Kept i s (withReleases i finish s)
      ∧ ∀ body, (∀ t, t.slot i = (s.slot i).givenUp → Posted (some i) body t (finish t)) →
          Posted (some i) body s (withReleases i finish s) := by
  obtain ⟨b, hq, hu⟩ := releases_becomes i s h hm
  obtain ⟨u, w, hb, hw, e⟩ := withReleases_cases i finish s
  rw [e]
  have hslot : u.slot i = (s.slot i).givenUp := (hb.slot i hq (fun h => h.elim)).trans b.slot
  obtain ⟨f, hs⟩ := hf u hslot
  have hqu := hb.noEntry hq
  have hqf : ∀ e ∈ (finish u).power.queue, e.slot ≠ i := fun e he => hqu e (f.queue e he)
  have hwi : w.slot i = x := by
    rw [hw.slot i hqf (fun _ hr => ?_), f.slot]
    rw [State.ctx, f.slot] at hr
    exact absurd hr hx
  refine ⟨hwi, hw.noEntry hqf, fun n => ?_, ⟨?_, ?_, ?_, fun j hj => ?_⟩, fun body hp => ?_⟩
  · rw [hw.store, hs, hb.store]
    exact hu n
  · exact b.evolves.trans (hb.evolves.trans (f.evolves.trans hw.evolves))
  · rw [hw.trunk, f.trunk, hb.trunk, b.trunk]
  · rw [hw.retained, f.retained, hb.retained, b.retained]
  · have hu' : u.slot j = s.slot j ∨ ∃ e ∈ s.power.queue, e.slot = j := by
      rcases hb.slots j with e | ⟨e, he, hs⟩ | ⟨h, -⟩
      · exact .inl (e.trans (b.others j hj))
      · exact .inr ⟨e, b.queue e he, hs⟩
      · exact h.elim
    rcases hu' with hu' | hu'
    · rcases hw.slots j with e | ⟨e, he, hs⟩ | ⟨-, h₁, h₂⟩
      · exact .inl (e.trans ((f.others j hj).trans hu'))
      · obtain ⟨e', he', hs'⟩ := hb.queue e (f.queue e he)
        exact .inr (.inl ⟨e', b.queue e' he', hs'.trans hs⟩)
      · rw [State.ctx, f.others j hj, hu'] at h₁ h₂
        exact .inr (.inr ⟨h₁, h₂⟩)
    · exact .inr (.inl hu')
  · exact (hp u hslot).extend (b.evolves.trans hb.evolves) (by rw [hb.trunk, b.trunk]) hw.evolves

/-! ### The ends of a bring-up -/

/-- A switch that is off holds no current, and its timers stand. -/
theorem PowerOk.off {s : State} (h : PowerOk s) (i : SlotIx) (hs : (s.slotPower i).switchOn = false) :
    (s.slotPower i).off = s.slotPower i ∧ (s.ctx i).heldDraw = 0 := by
  have on : ∀ st, st.powered = some true → (s.ctx i).state ≠ st := by
    rintro st hp e
    have := h.switches i true (by rw [e, hp])
    rw [hs] at this
    cases this
  have h₁ : (s.slotPower i).deadlineTimer = none := by
    cases e : (s.slotPower i).deadlineTimer with
    | none => rfl
    | some n => exact absurd (h.deadline i (.inl (by rw [e]; rfl))) (on _ rfl)
  have h₂ : (s.slotPower i).minimumTimer = none := by
    cases e : (s.slotPower i).minimumTimer with
    | none => rfl
    | some n => exact absurd (h.deadline i (.inr (by rw [e]; rfl))) (on _ rfl)
  have h₃ : (s.slotPower i).goodSeen = false := by
    cases e : (s.slotPower i).goodSeen with
    | false => rfl
    | true => exact absurd (h.good i e) (on _ rfl)
  have h₄ : (s.slotPower i).runPhaseTimer = none := by
    cases e : (s.slotPower i).runPhaseTimer with
    | none => rfl
    | some n => exact absurd (h.runPhase i (by rw [e]; rfl)) (on _ rfl)
  refine ⟨?_, by rw [h.draws i, hs]; rfl⟩
  generalize s.slotPower i = p at hs h₁ h₂ h₃ h₄
  cases p
  simp_all [SlotPower.off]

/-- R31: a milestone posts the entry of the context. -/
theorem milestone_becomes (i : SlotIx) (s : State) : Becomes i (s.slot i) s (milestone i s) ∧ (milestone i s).store = s.store :=
  ⟨.post i _ _ s, rfl⟩

theorem enterFaulted_becomes (i : SlotIx) (f : FaultRecord) (s : State) :
    Becomes i { s.slot i with ctx := { s.ctx i with state := .faulted, reason := none, fault := some f } } s (enterFaulted i (some f) s)
      ∧ (enterFaulted i (some f) s).store = s.store
      ∧ Posted (some i) (.milestone .faulted none none (some (f.kind, f.detail))) s (enterFaulted i (some f) s) := by
  have b := Becomes.modCtx i (fun c => { c with state := .faulted, reason := none, fault := some f }) s
  refine ⟨(b.trans (milestone_becomes i _).1).eq (by simp [State.ctx]), rfl, ?_⟩
  have := posted_post (some i) (.milestone .faulted none none (some (f.kind, f.detail)))
    (modCtx i (fun c => { c with state := .faulted, reason := none, fault := some f }) s)
  refine Posted.extend ?_ b.evolves rfl (.refl _)
  unfold enterFaulted milestone
  simpa using this

theorem enterWithdrawn_becomes (i : SlotIx) (r : Reason) (s : State) :
    Becomes i { s.slot i with ctx := { s.ctx i with state := .withdrawn, reason := some r } } s (enterWithdrawn i r s)
      ∧ (enterWithdrawn i r s).store = s.store
      ∧ Posted (some i) (.milestone .withdrawn (some r) none none) s (enterWithdrawn i r s) := by
  have b := Becomes.modCtx i (fun c => { c with state := .withdrawn, reason := some r }) s
  refine ⟨(b.trans (milestone_becomes i _).1).eq (by simp [State.ctx]), rfl, ?_⟩
  have := posted_post (some i) (.milestone .withdrawn (some r) none none)
    (modCtx i (fun c => { c with state := .withdrawn, reason := some r }) s)
  refine Posted.extend ?_ b.evolves rfl (.refl _)
  unfold enterWithdrawn milestone
  simpa using this

/-- R21: a definitive fault. -/
theorem definitiveFault_faults (i : SlotIx) (kind : FaultKind) (detail : Nat) (s : State)
    (h : (s.slotPower i).switchOn = false → (s.slotPower i).off = s.slotPower i ∧ (s.ctx i).heldDraw = 0)
    (hm : (s.map i).paired) : Faults i kind detail s (definitiveFault i kind detail s) := by
  obtain ⟨h₁, h₂, h₃, h₄, h₅⟩ := withReleases_gives i (enterFaulted i (some ((s.ctx i).record kind detail)))
    { s.slot i with ctx := (s.ctx i).faulted ((s.ctx i).record kind detail), power := (s.slotPower i).off
                    link := (s.link i).gone, map := (s.map i).released } s h hm (by simp [Context.faulted])
    (fun t ht => ⟨(enterFaulted_becomes i _ t).1.eq (by rw [State.ctx, ht]; rfl), (enterFaulted_becomes i _ t).2.1⟩)
  exact ⟨⟨h₁, h₂, h₃, h₄⟩, h₅ _ fun t _ => (enterFaulted_becomes i _ t).2.2⟩

/-- R29, R30: a withdrawal that gives the slot up. -/
theorem withReleases_withdraws (i : SlotIx) (r : Reason) (s : State)
    (h : (s.slotPower i).switchOn = false → (s.slotPower i).off = s.slotPower i ∧ (s.ctx i).heldDraw = 0)
    (hm : (s.map i).paired) : Withdraws i r s (withReleases i (enterWithdrawn i r) s) := by
  obtain ⟨h₁, h₂, h₃, h₄, h₅⟩ := withReleases_gives i (enterWithdrawn i r)
    { s.slot i with ctx := (s.ctx i).withdrawn r, power := (s.slotPower i).off, link := (s.link i).gone
                    map := (s.map i).released } s h hm (by simp [Context.withdrawn])
    (fun t ht => ⟨(enterWithdrawn_becomes i _ t).1.eq (by rw [State.ctx, ht]; rfl), (enterWithdrawn_becomes i _ t).2.1⟩)
  exact ⟨⟨h₁, h₂, h₃, h₄⟩, h₅ _ fun t _ => (enterWithdrawn_becomes i _ t).2.2⟩

/-! ### The retry -/

theorem backToStandby_becomes (i : SlotIx) (s : State) :
    Becomes i { s.slot i with ctx := { s.ctx i with heldDraw := min (s.ctx i).heldDraw 150 }
                              power := { s.slotPower i with runPhaseTimer := none } } s (backToStandby i s)
      ∧ (backToStandby i s).store = s.store := by
  have b := (Becomes.modRack i (fun p => { p with committed := p.committed - ((s.ctx i).heldDraw - Config.standbyDraw) }) s
    (fun _ => rfl) (fun _ _ h => h)).trans (Becomes.modRack i
      (fun p => { p with owner := if p.owner = some i then none else p.owner }) _ (fun _ => rfl) (fun _ _ h => h))
  have b := b.trans (Becomes.modPower i (fun p => { p with runPhaseTimer := none }) _)
  have b := b.trans (Becomes.modCtx i (fun c => { c with heldDraw := min c.heldDraw Config.standbyDraw }) _)
  exact ⟨b.eq (by simp [State.ctx, State.slotPower, Config.standbyDraw]), by simp [backToStandby, freeAllowance]⟩

/-- R58: what a base training that begins leaves of its slot. -/
theorem baseTraining_becomes (i : SlotIx) (s : State) : ∃ l : LinkEngine,
    Becomes i { s.slot i with ctx := { s.ctx i with rateCode := 0 }, link := l } s (baseTraining i s)
    ∧ (baseTraining i s).store = s.store
    ∧ (l.link = .training ∧ l.training = some (.base, 0) ∧ l.lost = false ∧ l.failures = 0 ∧ l.echoes = 0 ∧ l.watch = false
        ∧ l.pipe = .idle ∧ l.requestNumber = 0 ∧ l.bulk = none ∧ l.exchange = none ∧ l.alive = (s.link i).alive)
    ∧ ((l.sending = some (.train .base 0 1) ∧ l.seq = 1) ∨ l.next = some .train) := by
  have b := ((Becomes.modLink i LinkEngine.trainBase s).trans (Becomes.modCtx i (fun c => { c with rateCode := 0 }) _)).trans
    (Becomes.send i .train _)
  refine ⟨((baseTraining i s).slot i).link, b.eq ?_, ?_, ?_⟩
  · show (baseTraining i s).slot i = _
    unfold baseTraining send
    split <;> simp [sendNow, State.ctx]
  · exact (Beside.send_frame ..).2.2.1
  · unfold baseTraining send
    split <;> simp [sendNow, State.link, LinkEngine.trainBase, LinkEngine.train, LinkEngine.watchOff]

/-- What `retry` answers, whichever way the pass is taken. -/
theorem retry_cases (i : SlotIx) (s : State) :
    ∃ u w : State,
      Beside False (modCtx i (fun c =>
        { c with state := .linkTraining, reason := none, identity := none, result := none, layout := none, progress := none
                 walk := none, download := none }) (disarm i (unpin i (backToStandby i (leaveQueue i s))))) u
      ∧ Beside True (baseTraining i u) w ∧ retry i s = w := by
  unfold retry besidePass
  dsimp only
  split
  · unfold eitherOrder
    dsimp only
    split
    · exact ⟨_, _, (Beside.choices _ _).trans (Beside.pass _), Beside.recheckIf _ _, rfl⟩
    · exact ⟨_, _, Beside.choices _ _, (Beside.recheckIf _ _).trans (Beside.pass _), rfl⟩
  · exact ⟨_, _, Beside.refl _, Beside.recheckIf _ _, rfl⟩

/-- R20: the retry. -/
theorem retry_retrains (i : SlotIx) (s : State) (hm : (s.map i).paired) : Retrains i (s.ctx i).attempts s (retry i s) := by
  obtain ⟨b₁, hq⟩ := leaveQueue_becomes i s
  obtain ⟨b₂, hs₂⟩ := backToStandby_becomes i (leaveQueue i s)
  obtain ⟨b₃, hp⟩ := unpin_becomes i (backToStandby i (leaveQueue i s))
  have b₄ := Becomes.modMap i (SlotMap.change Window.disarm) (unpin i (backToStandby i (leaveQueue i s)))
  have b₅ := Becomes.modCtx i (fun c =>
    { c with state := .linkTraining, reason := none, identity := none, result := none, layout := none, progress := none
             walk := none, download := none }) (disarm i (unpin i (backToStandby i (leaveQueue i s))))
  have b₃₅ := (b₃.trans b₄).trans b₅
  have b := b₁.trans (b₂.trans b₃₅)
  obtain ⟨u, w, hb, hw, e⟩ := retry_cases i s
  rw [e]
  have hqs := fun x hx => hq x ((b₂.trans b₃₅).queue x hx)
  have hus := (hb.slot i hqs (fun h => h.elim)).trans b.slot
  obtain ⟨l, b₆, hs₆, hl, ht⟩ := baseTraining_becomes i u
  have hqf : ∀ x ∈ (baseTraining i u).power.queue, x.slot ≠ i := fun x hx => hb.noEntry hqs x (b₆.queue x hx)
  have hsl : (leaveQueue i s).slot i = s.slot i := rfl
  have e₂ := b₂.slot
  have e₃ := b₃.slot
  have hd := disarm_released _ hm
  simp only [State.map] at hd
  have hu : u.slot i = { s.slot i with
      ctx := { s.ctx i with
        state := .linkTraining, reason := none, identity := none, result := none, layout := none
        heldDraw := min (s.ctx i).heldDraw 150, pinned := none, progress := none, walk := none, download := none }
      power := { s.slotPower i with runPhaseTimer := none }, map := (s.map i).released } := by
    rw [hus]
    simp [State.map, State.ctx, State.slotPower, disarm, e₃, e₂, hsl, hd]
  have hws : w.slot i = (baseTraining i u).slot i := hw.slot i hqf fun _ hr => by
    rw [State.ctx, b₆.slot, State.ctx, hu] at hr
    cases hr
  rw [b₆.slot] at hws
  have hws' : w.slot i = { u.slot i with ctx := { u.ctx i with rateCode := 0 }, link := l } := hws
  refine ⟨?_, ?_, ?_, ?_, ?_, hw.noEntry hqf, fun n => ?_, ⟨?_, ?_, ?_, fun j hj => ?_⟩⟩
  · rw [State.ctx, hws', State.ctx, hu]
  · rw [State.slotPower, hws', hu]
  · rw [State.map, hws', hu]
  · rw [State.link, hws']
    have : (u.link i).alive = (s.link i).alive := by rw [State.link, hu]; rfl
    rw [← this]
    exact hl
  · rw [State.link, hws']
    exact ht
  · rw [hw.store, hs₆, hb.store]
    have := hp n
    have e₅ : ((backToStandby i (leaveQueue i s)).ctx i).pinned = (s.ctx i).pinned := by
      have := congrArg (fun x : Slot => x.ctx.pinned) e₂
      exact this
    rw [e₅, hs₂] at this
    exact this
  · exact b.evolves.trans (hb.evolves.trans (b₆.evolves.trans hw.evolves))
  · rw [hw.trunk, b₆.trunk, hb.trunk, b.trunk]
  · rw [hw.retained, b₆.retained, hb.retained, b.retained]
  · have hu' : u.slot j = s.slot j ∨ ∃ e ∈ s.power.queue, e.slot = j := by
      rcases hb.slots j with e | ⟨e, he, hs⟩ | ⟨h, -⟩
      · exact .inl (e.trans (b.others j hj))
      · exact .inr ⟨e, b.queue e he, hs⟩
      · exact h.elim
    rcases hu' with hu' | hu'
    · rcases hw.slots j with e | ⟨e, he, hs⟩ | ⟨-, h₁, h₂⟩
      · exact .inl (e.trans ((b₆.others j hj).trans hu'))
      · obtain ⟨e', he', hs'⟩ := hb.queue e (b₆.queue e he)
        exact .inr (.inl ⟨e', b.queue e' he', hs'.trans hs⟩)
      · rw [State.ctx, b₆.others j hj, hu'] at h₁ h₂
        exact .inr (.inr ⟨h₁, h₂⟩)
    · exact .inr (.inl hu')

/-- R20: a transient fault. -/
theorem transientFault_faults (i : SlotIx) (kind : FaultKind) (s : State)
    (h : (s.slotPower i).switchOn = false → (s.slotPower i).off = s.slotPower i ∧ (s.ctx i).heldDraw = 0)
    (hm : (s.map i).paired) : TransientlyFaults i kind s (transientFault i kind s) := by
  have b : Becomes i { s.slot i with ctx := { s.ctx i with attempts := min 3 ((s.ctx i).attempts + 1) } } s (raiseAttempts i s) :=
    Becomes.modCtx i (fun c => { c with attempts := min Config.attemptsMax (c.attempts + 1) }) s
  have hc : (raiseAttempts i s).ctx i = { s.ctx i with attempts := min 3 ((s.ctx i).attempts + 1) } := by
    rw [State.ctx, b.slot]
  have hp : (raiseAttempts i s).slotPower i = s.slotPower i := by rw [State.slotPower, b.slot]; rfl
  have hl : (raiseAttempts i s).link i = s.link i := by rw [State.link, b.slot]; rfl
  have hmap : (raiseAttempts i s).map i = s.map i := by rw [State.map, b.slot]; rfl
  have hk : ∀ t, Kept i (raiseAttempts i s) t → Kept i s t := by
    intro t k
    refine ⟨b.evolves.trans k.evolves, k.trunk.trans b.trunk, k.retained.trans b.retained, fun j hj => ?_⟩
    have := k.others j hj
    rw [State.ctx, b.others j hj] at this
    exact this
  unfold TransientlyFaults transientFault
  dsimp only
  by_cases ha : (s.ctx i).attempts < 2
  · rw [if_pos ha, if_pos (by rw [hc]; simp only [Config.attemptsMax]; omega)]
    obtain ⟨h₁, h₂, h₃, h₄, h₅, h₆, h₇, h₈⟩ := retry_retrains i (raiseAttempts i s) (by rw [hmap]; exact hm)
    rw [hc] at h₁ h₇
    rw [hp] at h₂
    rw [hmap] at h₃
    rw [hl] at h₄
    refine ⟨?_, h₂, h₃, h₄, h₅, h₆, h₇, hk _ h₈⟩
    rw [h₁]
    have : min 3 ((s.ctx i).attempts + 1) = (s.ctx i).attempts + 1 := by omega
    rw [this]
  · rw [if_neg ha, if_neg (by rw [hc]; simp only [Config.attemptsMax]; omega)]
    obtain ⟨⟨h₁, h₂, h₃, h₄⟩, h₅⟩ := definitiveFault_faults i .attemptsExhausted kind.code (raiseAttempts i s)
      (by rw [hp, hc]; exact h) (by rw [hmap]; exact hm)
    have : min 3 ((s.ctx i).attempts + 1) = 3 := by omega
    rw [hc, hp, hl, hmap, b.slot, this] at h₁
    rw [hc] at h₃
    exact ⟨⟨h₁, h₂, h₃, hk _ h₄⟩, h₅.extend b.evolves (by rw [b.trunk]) (.refl _)⟩

end Sys2Proof.Machine
end

