-- ==== Sys2Proof/Laws/Rechecks.lean ====
section
/-! SUPPORT. The re-checks of R160, said once: no admission check changes another, so in whatever order they are made each READY
context without hold is left as its own check against the same windows leaves it (Rechecks), and nothing else happens to any slot. -/

namespace Sys2Proof.Machine

/-- R158: an admission check reads the windows, the configuration, and of its own context the identity, the layout and the rate code. -/
theorem admission_congr {s t : State} (i : SlotIx) (ht : t.trunk = s.trunk) (hm : ∀ j, t.map j = s.map j)
    (hi : (t.ctx i).identity = (s.ctx i).identity) (hl : (t.ctx i).layout = (s.ctx i).layout)
    (hr : (t.ctx i).rateCode = (s.ctx i).rateCode) : t.admission i = s.admission i := by
  have co : (t.ctx i).co = (s.ctx i).co := by simp only [Context.co, hi]
  have ci : (t.ctx i).ci = (s.ctx i).ci := by simp only [Context.ci, hi]
  have w : ∀ d, (t.ctx i).window d = (s.ctx i).window d := by intro d; simp only [Context.window, hl]
  simp only [State.admission, State.overlapping, Context.fitsCycle, Context.need, co, ci, w, ht, hm, hr]
  rfl

/-- R52: asking of a request on a pair that is quiet, and on one that is not. -/
theorem send_request_link (i : SlotIx) (r : ControlReq) (s : State) : (send i (.request r) s).link i = (s.link i).asks r := by
  simp only [send, LinkEngine.occupied, LinkEngine.asks, Bool.or_eq_true, or_assoc]
  split <;> simp [sendNow]

/-- R14, R159, R161: what the check of a READY context leaves at its slot. -/
theorem tryAdmit_rechecks {i : SlotIx} {s : State} (h : (s.ctx i).state = .ready) (hh : (s.ctx i).hold = false)
    (hr : s.ownRetiring i = false) : Rechecks i s (tryAdmit i s) := by
  have b := Beside.tryAdmit i s
  have adm : (tryAdmit i s).admission i = s.admission i := by
    refine admission_congr i b.trunk b.map ?_ ?_ ?_ <;>
      (simp only [tryAdmit, h, hh, hr, and_self, if_true]
       split
       · unfold refuseAdmission; dsimp only; split <;> simp [post]
       · rw [(Beside.send_frame ..).2.2.2.2.2.1]; simp)
  constructor
  · intro ha
    rw [adm] at ha
    have e : tryAdmit i s = send i (.request .start) (modCtx i (fun c => { c with state := .starting, reason := none }) s) := by
      simp only [tryAdmit, h, hh, hr, and_self, if_true, ha]
    rw [e, (Beside.send_frame ..).2.2.2.2.2.1, send_request_link]
    simp
  · intro r ha
    rw [adm] at ha
    have e : tryAdmit i s = refuseAdmission i r s := by simp only [tryAdmit, h, hh, hr, and_self, if_true, ha]
    refine ⟨?_, ?_, fun hn => ?_⟩
    · rw [e]; unfold refuseAdmission; dsimp only; split <;> simp [post, ← h]
    · rw [e]; unfold refuseAdmission; dsimp only; split <;> simp [post]
    · have p := posted_post (some i) (.admitRefused r)
        (modCtx i (fun c => { c with state := .ready, reason := some r.reason }) s)
      rw [b.trunk, e]
      unfold refuseAdmission
      simp only [hn, if_false]
      simpa [Posted] using p

/-- A check changes no slot but its own, and no check that is still to come. -/
theorem tryAdmit_other {i j : SlotIx} (s : State) (h : j ≠ i) :
    (tryAdmit i s).slot j = s.slot j ∧ (tryAdmit i s).admission j = s.admission j := by
  have e : (tryAdmit i s).slot j = s.slot j := by
    unfold tryAdmit
    split
    · split
      · unfold refuseAdmission; dsimp only
        split
        · exact modCtx_slot_ne _ _ h
        · exact modCtx_slot_ne (fun c => { c with state := .ready, reason := _ }) s h
      · rw [(Beside.send_frame ..).2.2.2.2.2.2.2.2.2 j h]; exact modCtx_slot_ne _ _ h
    · rfl
  have b := Beside.tryAdmit i s
  have c : (tryAdmit i s).ctx j = s.ctx j := by simp only [State.ctx, e]
  exact ⟨e, admission_congr j b.trunk b.map (by rw [c]) (by rw [c]) (by rw [c])⟩

/-- The checks of a list of slots leave every slot that is not on it alone. -/
theorem tryAdmits_other (l : List SlotIx) (s : State) (j : SlotIx) (h : j ∉ l) :
    let t := l.foldl (fun t i => tryAdmit i t) s
    t.slot j = s.slot j ∧ t.admission j = s.admission j ∧ Beside True s t := by
  induction l generalizing s with
  | nil => exact ⟨rfl, rfl, .refl s⟩
  | cons a l ih =>
    obtain ⟨ha, hl⟩ := not_or.1 (fun c => h (List.mem_cons.2 c))
    have o := tryAdmit_other s ha
    have r := ih (tryAdmit a s) hl
    exact ⟨r.1.trans o.1, r.2.1.trans o.2, (Beside.tryAdmit a s).trans r.2.2⟩

/-- A re-check stands through what leaves its slot and its check alone. -/
theorem Rechecks.through {i : SlotIx} {s t u v : State} (h : Rechecks i t u) (hs : t.slot i = s.slot i) (a : Evolves s t)
    (hv : v.slot i = u.slot i) (ha : v.admission i = u.admission i) (b : Evolves u v) (ht : v.trunk = u.trunk)
    (hu : u.trunk = t.trunk) (hts : t.trunk = s.trunk) : Rechecks i s v := by
  have c : t.ctx i = s.ctx i := by simp only [State.ctx, hs]
  have l : t.link i = s.link i := by simp only [State.link, hs]
  have c' : v.ctx i = u.ctx i := by simp only [State.ctx, hv]
  have l' : v.link i = u.link i := by simp only [State.link, hv]
  refine ⟨fun hn => ?_, fun r hr => ?_⟩
  · rw [c', l', ← c, ← l]; exact h.passes (ha ▸ hn)
  · obtain ⟨h₁, h₂, h₃⟩ := h.refused r (ha ▸ hr)
    rw [c', l', ← c, ← l]
    refine ⟨h₁, h₂, fun hn => ?_⟩
    have p : Posted (some i) (.admitRefused r) t u := by
      unfold Posted
      rw [← hu]
      exact h₃ hn
    have q := p.extend a (congrArg Trunk.lastCycle hts) b
    unfold Posted at q
    rwa [ht, hu, hts]

/-- The free order of a list of slots is a rearrangement of it. -/
theorem freeOrder_perm (n : Nat) (l : List SlotIx) : (freeOrder n l).Perm l := by
  have insert : ∀ (a : SlotIx) (l : List SlotIx), (insertBy (Config.slotRank n) a l).Perm (a :: l) := by
    intro a l
    induction l with
    | nil => exact .refl _
    | cons b l ih =>
      unfold insertBy
      split
      · exact .refl _
      · exact (ih.cons b).trans (.swap a b l)
  unfold freeOrder
  induction l with
  | nil => exact .refl _
  | cons a l ih => exact (insert a _).trans (ih.cons a)

/-- R160: what the re-checks leave: each READY context without hold whose own windows are not RETIRING has made its check, and every
other slot stands. -/
theorem recheckAll_rechecks (s : State) (j : SlotIx) :
    if (s.ctx j).state = .ready ∧ (s.ctx j).hold = false ∧ s.ownRetiring j = false then Rechecks j s (recheckAll s)
    else (recheckAll s).slot j = s.slot j := by
  let u : State := { s with choices := s.choices + 1 }
  let l := s.slotsWhere fun x => decide (x.ctx.state = .ready) && !x.ctx.hold
  have e : recheckAll s = (freeOrder s.choices l).foldl (fun t i => tryAdmit i t) u := rfl
  have mem : j ∈ freeOrder s.choices l ↔ (s.ctx j).state = .ready ∧ (s.ctx j).hold = false := by
    rw [(freeOrder_perm _ _).mem_iff]
    have all : j ∈ allSlots := by revert j; decide
    simp [l, State.slotsWhere, State.ctx, all]
  by_cases hj : j ∈ freeOrder s.choices l
  · have nodup : (freeOrder s.choices l).Nodup :=
      (freeOrder_perm _ _).nodup_iff.2 (List.Nodup.filter _ (by decide))
    obtain ⟨a, b, hab⟩ := List.append_of_mem hj
    rw [hab] at nodup
    have ja : j ∉ a := fun h => (List.nodup_append.1 nodup).2.2 j h j (List.mem_cons_self ..) rfl
    have jb : j ∉ b := (List.nodup_cons.1 (List.nodup_append.1 nodup).2.1).1
    rw [e, hab, List.foldl_append, List.foldl_cons]
    obtain ⟨a₁, -, a₃⟩ := tryAdmits_other a u j ja
    obtain ⟨b₁, b₂, b₃⟩ := tryAdmits_other b (tryAdmit j (a.foldl (fun t i => tryAdmit i t) u)) j jb
    have c : (a.foldl (fun t i => tryAdmit i t) u).ctx j = s.ctx j := congrArg Slot.ctx a₁
    have o : (a.foldl (fun t i => tryAdmit i t) u).ownRetiring j = s.ownRetiring j := by
      simp only [State.ownRetiring, a₃.map]; rfl
    obtain ⟨h₁, h₂⟩ := mem.1 hj
    split
    · rename_i h
      exact (tryAdmit_rechecks (by rw [c]; exact h.1) (by rw [c]; exact h.2.1) (by rw [o]; exact h.2.2)).through a₁
        ((Evolves.choices _ (.refl s)).trans a₃.evolves) b₁ b₂ b₃.evolves b₃.trunk (Beside.tryAdmit ..).trunk a₃.trunk
    · rename_i h
      rw [b₁, show tryAdmit j _ = _ from if_neg fun k => h ⟨h₁, h₂, o ▸ k.2.2⟩, a₁]
      rfl
  · rw [if_neg fun h => hj (mem.2 ⟨h.1, h.2.1⟩), e]
    exact (tryAdmits_other _ u j hj).1

end Sys2Proof.Machine
end

