-- ==== Sys2Proof/Laws/Store.lean ====
section
/-! SUPPORT. The block memory of the Parameter Store: every operation keeps the canonical form, and a byte written is read back
while every other byte stays. -/

namespace Sys2Proof.Machine

theorem memoryWfFrom_mono {m : List Host.Cell} {low low' : Nat} (h : low' ≤ low) (hm : memoryWfFrom low m = true) :
    memoryWfFrom low' m = true := by
  cases m with
  | nil => rfl
  | cons c m =>
    simp only [memoryWfFrom, Bool.and_eq_true, decide_eq_true_eq] at hm ⊢
    exact ⟨⟨h.trans hm.1.1, hm.1.2⟩, hm.2⟩

/-- A cell in canonical form before a canonical rest. -/
theorem memoryWfFrom_canonicalCell {m : List Host.Cell} {low a : Nat} (b : Byte) (ha : low ≤ a)
    (hm : memoryWfFrom (a + 1) m = true) : memoryWfFrom low (canonicalCell a b ++ m) = true := by
  unfold canonicalCell
  split
  · exact memoryWfFrom_mono (by omega) hm
  · next hb => simpa [memoryWfFrom, ha, hb] using hm

/-- A write keeps the canonical form. -/
theorem memoryWfFrom_writeCell {m : List Host.Cell} {low a : Nat} (b : Byte) (ha : low ≤ a)
    (hm : memoryWfFrom low m = true) : memoryWfFrom low (writeCell m a b) = true := by
  induction m generalizing low with
  | nil => simpa [writeCell] using memoryWfFrom_canonicalCell (m := []) b ha rfl
  | cons c m ih =>
    obtain ⟨k, x⟩ := c
    simp only [memoryWfFrom, Bool.and_eq_true, decide_eq_true_eq] at hm
    unfold writeCell
    split
    · next h =>
      refine memoryWfFrom_canonicalCell b ha ?_
      simp only [memoryWfFrom, Bool.and_eq_true, decide_eq_true_eq]
      exact ⟨⟨h, hm.1.2⟩, hm.2⟩
    · split
      · next h => subst h; exact memoryWfFrom_canonicalCell b ha hm.2
      · simp only [memoryWfFrom, Bool.and_eq_true, decide_eq_true_eq]
        exact ⟨hm.1, ih (by omega) hm.2⟩

theorem memoryWf_writeCell {m : List Host.Cell} (a : Nat) (b : Byte) (hm : Memory.wf m = true) :
    Memory.wf (writeCell m a b) = true := memoryWfFrom_writeCell b (Nat.zero_le a) hm

theorem memoryWf_placeBytes (r : SetRecord) (o : Nat) (bs : Bytes) {m : List Host.Cell} (hm : Memory.wf m = true) :
    Memory.wf (placeBytes r o bs m) = true := by
  induction bs generalizing o m with
  | nil => exact hm
  | cons b bs ih => exact ih (o + 1) (memoryWf_writeCell _ _ hm)

theorem memoryWf_reset : Memory.wf State.reset.store.memory = true := rfl

/-- An address below every listed one reads as unlisted. -/
theorem readCell_below {m : List Host.Cell} {low k : Nat} (hk : k < low) (hm : memoryWfFrom low m = true) :
    readCell m k = unlistedByte := by
  cases m with
  | nil => rfl
  | cons c m =>
    obtain ⟨a, x⟩ := c
    simp only [memoryWfFrom, Bool.and_eq_true, decide_eq_true_eq] at hm
    simp [readCell, show k ≠ a by omega, show k < a by omega]

theorem readCell_canonicalCell_same (m : List Host.Cell) (a : Nat) (b : Byte) (hm : memoryWfFrom (a + 1) m = true) :
    readCell (canonicalCell a b ++ m) a = b := by
  unfold canonicalCell
  split
  · next h => simpa [h] using readCell_below (Nat.lt_succ_self a) hm
  · simp [readCell]

theorem readCell_canonicalCell_other (m : List Host.Cell) {a k : Nat} (b : Byte) (hk : k ≠ a)
    (hm : memoryWfFrom (a + 1) m = true) : readCell (canonicalCell a b ++ m) k = readCell m k := by
  unfold canonicalCell
  split
  · rfl
  · by_cases h : k < a
    · simp [readCell, hk, h, readCell_below (show k < a + 1 by omega) hm]
    · simp [readCell, hk, h]

/-- A byte written is read back. -/
theorem readCell_writeCell_same {m : List Host.Cell} {low : Nat} (a : Nat) (b : Byte) (hm : memoryWfFrom low m = true) :
    readCell (writeCell m a b) a = b := by
  induction m generalizing low with
  | nil => simpa [writeCell] using readCell_canonicalCell_same [] a b rfl
  | cons c m ih =>
    obtain ⟨k, x⟩ := c
    simp only [memoryWfFrom, Bool.and_eq_true, decide_eq_true_eq] at hm
    unfold writeCell
    split
    · next h =>
      refine readCell_canonicalCell_same _ a b ?_
      simp only [memoryWfFrom, Bool.and_eq_true, decide_eq_true_eq]
      exact ⟨⟨h, hm.1.2⟩, hm.2⟩
    · split
      · next h => subst h; exact readCell_canonicalCell_same _ _ b hm.2
      · next h₁ h₂ => simp [readCell, h₂, h₁, ih hm.2]

/-- A write leaves every other byte. -/
theorem readCell_writeCell_other {m : List Host.Cell} {low a k : Nat} (b : Byte) (hk : k ≠ a)
    (hm : memoryWfFrom low m = true) : readCell (writeCell m a b) k = readCell m k := by
  induction m generalizing low with
  | nil => simpa [writeCell] using readCell_canonicalCell_other [] b hk rfl
  | cons c m ih =>
    obtain ⟨l, x⟩ := c
    have hc := hm
    simp only [memoryWfFrom, Bool.and_eq_true, decide_eq_true_eq] at hm
    unfold writeCell
    split
    · next h =>
      refine readCell_canonicalCell_other _ b hk ?_
      simp only [memoryWfFrom, Bool.and_eq_true, decide_eq_true_eq]
      exact ⟨⟨h, hm.1.2⟩, hm.2⟩
    · split
      · next h =>
        subst h
        rw [readCell_canonicalCell_other _ b hk hm.2]
        by_cases h' : k < a
        · simp [readCell, hk, h', readCell_below (show k < a + 1 by omega) hm.2]
        · simp [readCell, hk, h']
      · simp only [readCell]
        split
        · rfl
        · split
          · rfl
          · exact ih hm.2

end Sys2Proof.Machine
end

