-- ==== Sys2Proof/Laws/Requests.lean ====
section
/-! SUPPORT. What the execution of a request leaves: the request queue, the waiting commands, the capacity of the event queue and
the canonical form of the block memory; and what every request but the two that load and clear records leaves of the records. -/

namespace Sys2Proof.Machine

/-- `t` follows from `s` by the execution of a request. -/
structure Serves (s t : State) : Prop where
  pending : t.pending = s.pending
  requests : t.requests = s.requests
  capacity : s.events.events.length ≤ 32 → t.events.events.length ≤ 32
  memory : Memory.wf s.store.memory = true → Memory.wf t.store.memory = true

/-- `t` follows from `s` by a request that touches no expectation record. -/
structure LeavesRecords (s t : State) : Prop where
  serves : Serves s t
  expected : ∀ i, t.expected i = s.expected i

theorem Serves.refl (s : State) : Serves s s := ⟨rfl, rfl, id, id⟩

theorem Serves.trans {s t u : State} (a : Serves s t) (b : Serves t u) : Serves s u :=
  ⟨b.pending.trans a.pending, b.requests.trans a.requests, fun h => b.capacity (a.capacity h), fun h => b.memory (a.memory h)⟩

theorem LeavesRecords.refl (s : State) : LeavesRecords s s := ⟨Serves.refl s, fun _ => rfl⟩

theorem LeavesRecords.trans {s t u : State} (a : LeavesRecords s t) (b : LeavesRecords t u) : LeavesRecords s u :=
  ⟨a.serves.trans b.serves, fun i => (b.expected i).trans (a.expected i)⟩

theorem Evolves.serves {s t : State} (h : Evolves s t) : Serves s t :=
  ⟨h.pending, h.requests, h.capacity, fun hm => by rw [h.memory]; exact hm⟩

theorem Evolves.leavesRecords {s t : State} (h : Evolves s t) : LeavesRecords s t := ⟨h.serves, h.expected⟩

/-! ### The checks before the act -/

theorem segmentRequest_cases (r : Request) (ok : Nat → Bool) (act : State → State × Answer) (s : State) :
    (segmentRequest r ok act s).1 = s ∨ segmentRequest r ok act s = act s := by
  unfold segmentRequest
  split
  · exact .inl rfl
  · split
    · exact .inl rfl
    · exact .inr rfl

theorem slotRequest_cases (r : Request) (ok : Nat → Bool) (act : SlotIx → State → State × Answer) (s : State) :
    (slotRequest r ok act s).1 = s ∨ ∃ i, slotTarget r.target = some i ∧ slotRequest r ok act s = act i s := by
  unfold slotRequest
  split
  · exact .inl rfl
  · next i h =>
    split
    · exact .inl rfl
    · exact .inr ⟨i, h, rfl⟩

theorem setRequest_cases (r : Request) (ok : Nat → Bool) (act : SetIx → State → State × Answer) (s : State) :
    (setRequest r ok act s).1 = s ∨ ∃ n, setTarget r.target = some n ∧ setRequest r ok act s = act n s := by
  unfold setRequest
  split
  · exact .inl rfl
  · next n h =>
    split
    · exact .inl rfl
    · exact .inr ⟨n, h, rfl⟩

section
variable {P : State → Prop} {r : Request} {ok : Nat → Bool} {s : State}

theorem segmentRequest_keeps {act : State → State × Answer} (h0 : P s) (h : P (act s).1) :
    P (segmentRequest r ok act s).1 := by
  rcases segmentRequest_cases r ok act s with e | e <;> rw [e] <;> assumption

theorem slotRequest_keeps {act : SlotIx → State → State × Answer} (h0 : P s) (h : ∀ i, P (act i s).1) :
    P (slotRequest r ok act s).1 := by
  rcases slotRequest_cases r ok act s with e | ⟨i, -, e⟩ <;> rw [e]
  · exact h0
  · exact h i

theorem setRequest_keeps {act : SetIx → State → State × Answer} (h0 : P s) (h : ∀ n, P (act n s).1) :
    P (setRequest r ok act s).1 := by
  rcases setRequest_cases r ok act s with e | ⟨n, -, e⟩ <;> rw [e]
  · exact h0
  · exact h n

end

/-! ### Segment requests -/

theorem segCycle_leavesRecords (p o i g : Nat) (s : State) : LeavesRecords s (segCycle p o i g s).1 := by
  unfold segCycle
  split
  · exact .refl s
  · refine LeavesRecords.trans ?_ (Evolves.recheckAll (Evolves.refl _)).leavesRecords
    exact ⟨⟨rfl, rfl, id, id⟩, fun _ => rfl⟩

theorem segBudget_leavesRecords (b : Nat) (s : State) : LeavesRecords s (segBudget b s).1 := by
  have h : LeavesRecords s (modRack (fun p => { p with budget := b }) s) := ⟨⟨rfl, rfl, id, id⟩, fun _ => rfl⟩
  unfold segBudget
  split
  · exact .refl s
  · refine h.trans (Evolves.leavesRecords ?_)
    dsimp only [setBudget]
    split <;> split <;> simp (maxDischargeDepth := 12) [Evolves.refl]

theorem segAttn_leavesRecords (n : Nat) (s : State) : LeavesRecords s (segAttn n s).1 :=
  ⟨⟨rfl, rfl, id, id⟩, fun _ => rfl⟩

theorem slot_map (s : State) (f : Slot → Slot) (i : SlotIx) : (s.slots.map f)[i] = f (s.slot i) := by
  simp [State.slot]

theorem resetBlocks_leavesRecords (s : State) : LeavesRecords s (examineLines (resetBlocks s)) := by
  have h : LeavesRecords s (resetBlocks s) := by
    refine ⟨⟨rfl, rfl, fun _ => ?_, id⟩, fun i => ?_⟩
    · simp [resetBlocks, post, EventBlock.append, Config.eventCapacity]
    · exact (congrArg Slot.expected (slot_map s Slot.segReset i)).trans rfl
  exact h.trans (Evolves.eachSlot _ (fun i _ => Evolves.examineLine i) (Evolves.refl _)).leavesRecords

theorem performSegReset_leavesRecords (r : Request) (s : State) : LeavesRecords s (performSegReset r s).1 := by
  unfold performSegReset
  rcases segmentRequest_cases r (exactly 0) (fun s => (examineLines (resetBlocks s), done .none)) s with e | e
  · rw [e]; exact .refl s
  · rw [e]; dsimp only; exact resetBlocks_leavesRecords s

theorem evtRead_leavesRecords (n : Nat) (s : State) : LeavesRecords s (evtRead n s).1 := by
  unfold evtRead
  split
  · exact .refl s
  · refine ⟨⟨rfl, rfl, fun h => ?_, id⟩, fun _ => rfl⟩
    simp only [modEvents_events, List.length_drop]
    omega

/-! ### Requests for slots -/

theorem slotHold_leavesRecords (i : SlotIx) (s : State) : LeavesRecords s (slotHold i s).1 :=
  ⟨⟨rfl, rfl, id, id⟩, fun _ => by simp [slotHold]⟩

theorem release_leavesRecords (i : SlotIx) (s : State) : LeavesRecords s (release i s) := by
  apply Evolves.leavesRecords
  unfold release
  dsimp only
  split
  · split <;> simp (maxDischargeDepth := 12) [Evolves.refl]
  all_goals simp (maxDischargeDepth := 12) [Evolves.refl]

theorem slotRestart_leavesRecords (i : SlotIx) (s : State) : LeavesRecords s (slotRestart i s).1 := by
  unfold slotRestart
  split
  · exact .refl s
  · exact (Evolves.withReleases i _ (fun u hu => by simp (maxDischargeDepth := 12) [restartSettling, hu])
      (Evolves.refl s)).leavesRecords

theorem slotWithdraw_leavesRecords (i : SlotIx) (s : State) : LeavesRecords s (slotWithdraw i s).1 := by
  unfold slotWithdraw
  split
  · exact .refl s
  · apply Evolves.leavesRecords
    dsimp only
    unfold withdraw
    split
    all_goals first
      | exact Evolves.refl s
      | exact Evolves.enterDraining i _ (Evolves.refl s)
      | exact Evolves.modCtx i _ (Evolves.refl s)
      | exact Evolves.enterWithdrawn i _ (Evolves.refl s)
      | exact Evolves.withReleases i _ (fun _ hu => Evolves.enterWithdrawn i _ hu) (Evolves.refl s)

/-! ### Requests to the Parameter Store -/

theorem psetOpen_leavesRecords (f : Nat) (n : SetIx) (s : State) : LeavesRecords s (psetOpen f n s).1 := by
  unfold psetOpen
  split
  · exact .refl s
  · exact ⟨⟨rfl, rfl, id, id⟩, fun _ => rfl⟩

theorem psetWrite_leavesRecords (b : Bytes) (n : SetIx) (s : State) : LeavesRecords s (psetWrite b n s).1 := by
  unfold psetWrite
  dsimp only
  split
  · exact .refl s
  · split
    · exact .refl s
    · split
      · exact .refl s
      · exact ⟨⟨rfl, rfl, id, fun h => memoryWf_placeBytes _ _ _ h⟩, fun _ => rfl⟩

theorem psetClose_leavesRecords (n : SetIx) (s : State) : LeavesRecords s (psetClose n s).1 := by
  unfold psetClose
  split
  · exact .refl s
  · refine LeavesRecords.trans ?_ (Evolves.forList _ _ (fun i _ => Evolves.runMatching i) (Evolves.refl _)).leavesRecords
    exact ⟨⟨rfl, rfl, id, id⟩, fun _ => rfl⟩

theorem psetDrop_leavesRecords (n : SetIx) (s : State) : LeavesRecords s (psetDrop n s).1 := by
  unfold psetDrop
  split
  · exact .refl s
  · split
    · exact .refl s
    · exact ⟨⟨rfl, rfl, id, id⟩, fun _ => rfl⟩

theorem psetRead_fst (o l : Nat) (n : SetIx) (s : State) : (psetRead o l n s).1 = s := by
  unfold psetRead
  dsimp only
  split
  · rfl
  · split
    · rfl
    · split <;> rfl

/-! ### Requests to the Expected Configuration Table -/

theorem setExpected_serves (i : SlotIx) (r : Option ExpRecord) (s : State) : Serves s (setExpected i r s) :=
  ⟨rfl, rfl, id, id⟩

theorem actOnLoad_evolves (i : SlotIx) (r : ExpRecord) (s : State) : Evolves s (actOnLoad i r s) := by
  unfold actOnLoad
  dsimp only
  split
  · simp [Evolves.refl]
  · split
    · split <;> simp [Evolves.refl]
    · split
      · exact Evolves.withReleases i _ (fun _ hu => Evolves.enterWithdrawn i _ hu) (Evolves.refl s)
      · exact Evolves.refl s

theorem actOnClear_evolves (i : SlotIx) (s : State) : Evolves s (actOnClear i s) := by
  unfold actOnClear
  dsimp only
  split
  · simp [Evolves.refl]
  · split <;> simp [Evolves.refl]

theorem expLoad_serves (p : Bytes) (i : SlotIx) (s : State) : Serves s (expLoad p i s).1 := by
  unfold expLoad
  split
  · exact .refl s
  · split
    · exact .refl s
    · exact (setExpected_serves i _ s).trans (actOnLoad_evolves i _ _).serves

/-- What EXP_LOAD does to the records of the other slots: nothing. -/
theorem expLoad_other (p : Bytes) {i j : SlotIx} (s : State) (h : j ≠ i) : (expLoad p i s).1.expected j = s.expected j := by
  unfold expLoad
  split
  · rfl
  · split
    · rfl
    · rw [(actOnLoad_evolves i _ _).expected j, setExpected_expected_ne _ _ h]

theorem expClear_serves (i : SlotIx) (s : State) : Serves s (expClear i s).1 := by
  unfold expClear
  split
  · exact .refl s
  · split
    · exact .refl s
    · exact (setExpected_serves i _ s).trans (actOnClear_evolves i _).serves

/-! ### Every request -/

/-- Every request but EXP_LOAD and EXP_CLEAR leaves the expectation records. -/
theorem perform_leavesRecords (r : Request) (s : State) (h₁ : requestName r.code ≠ some .expLoad)
    (h₂ : requestName r.code ≠ some .expClear) : LeavesRecords s (perform r s).1 := by
  unfold perform
  generalize requestName r.code = name at h₁ h₂ ⊢
  match name, h₁, h₂ with
  | none, _, _ => exact .refl s
  | some .segIdent, _, _ => exact segmentRequest_keeps (P := LeavesRecords s) (.refl s) (.refl s)
  | some .segCycle, _, _ => exact segmentRequest_keeps (P := LeavesRecords s) (.refl s) (segCycle_leavesRecords _ _ _ _ s)
  | some .segBudget, _, _ => exact segmentRequest_keeps (P := LeavesRecords s) (.refl s) (segBudget_leavesRecords _ s)
  | some .segAttn, _, _ => exact segmentRequest_keeps (P := LeavesRecords s) (.refl s) (segAttn_leavesRecords _ s)
  | some .segReset, _, _ => exact performSegReset_leavesRecords r s
  | some .expLoad, h, _ => exact absurd rfl h
  | some .expClear, _, h => exact absurd rfl h
  | some .expRead, _, _ => exact slotRequest_keeps (P := LeavesRecords s) (.refl s) (fun _ => .refl s)
  | some .psetOpen, _, _ => exact setRequest_keeps (P := LeavesRecords s) (.refl s) (fun n => psetOpen_leavesRecords _ n s)
  | some .psetWrite, _, _ => exact setRequest_keeps (P := LeavesRecords s) (.refl s) (fun n => psetWrite_leavesRecords _ n s)
  | some .psetClose, _, _ => exact setRequest_keeps (P := LeavesRecords s) (.refl s) (fun n => psetClose_leavesRecords n s)
  | some .psetDrop, _, _ => exact setRequest_keeps (P := LeavesRecords s) (.refl s) (fun n => psetDrop_leavesRecords n s)
  | some .psetRead, _, _ => exact setRequest_keeps (P := LeavesRecords s) (.refl s) (fun n => by rw [psetRead_fst]; exact .refl s)
  | some .psetList, _, _ => exact segmentRequest_keeps (P := LeavesRecords s) (.refl s) (.refl s)
  | some .slotRead, _, _ => exact slotRequest_keeps (P := LeavesRecords s) (.refl s) (fun _ => .refl s)
  | some .slotHold, _, _ => exact slotRequest_keeps (P := LeavesRecords s) (.refl s) (fun i => slotHold_leavesRecords i s)
  | some .slotRelease, _, _ => exact slotRequest_keeps (P := LeavesRecords s) (.refl s) (fun i => release_leavesRecords i s)
  | some .slotRestart, _, _ => exact slotRequest_keeps (P := LeavesRecords s) (.refl s) (fun i => slotRestart_leavesRecords i s)
  | some .slotWithdraw, _, _ => exact slotRequest_keeps (P := LeavesRecords s) (.refl s) (fun i => slotWithdraw_leavesRecords i s)
  | some .mapRead, _, _ => exact segmentRequest_keeps (P := LeavesRecords s) (.refl s) (.refl s)
  | some .evtRead, _, _ => exact segmentRequest_keeps (P := LeavesRecords s) (.refl s) (evtRead_leavesRecords _ s)

/-- Every request leaves the request queue, the waiting commands and the canonical form, and keeps the event queue within its
capacity. -/
theorem perform_serves (r : Request) (s : State) : Serves s (perform r s).1 := by
  by_cases h₁ : requestName r.code = some .expLoad
  · unfold perform
    rw [h₁]
    exact slotRequest_keeps (P := Serves s) (.refl s) (fun i => expLoad_serves _ i s)
  · by_cases h₂ : requestName r.code = some .expClear
    · unfold perform
      rw [h₂]
      exact slotRequest_keeps (P := Serves s) (.refl s) (fun i => expClear_serves i s)
    · exact (perform_leavesRecords r s h₁ h₂).serves

end Sys2Proof.Machine
end

