-- ==== Sys2Proof/Laws/Wire.lean ====
section
/-! SUPPORT. Numbers and slot link messages on the wire: a number sent is the number read, and the messages that parse are exactly
those `linkBytes` makes. -/

namespace Sys2Proof.Machine

/-! ### Numbers -/

@[simp] theorem enc8_length (n : Nat) : (enc8 n).length = 1 := rfl
@[simp] theorem enc16_length (n : Nat) : (enc16 n).length = 2 := rfl
@[simp] theorem enc32_length (n : Nat) : (enc32 n).length = 4 := rfl

theorem enc16_numAt (n : Nat) (h : n < 65536) :
    (BitVec.ofNat 8 (n / 256)).toNat * 256 + (BitVec.ofNat 8 n).toNat = n := by
  simp only [BitVec.toNat_ofNat]
  omega

/-- Two bytes are the encoding of the number they spell. -/
theorem enc16_of_bytes (a b : Byte) : enc16 (a.toNat * 256 + b.toNat) = [a, b] := by
  have ha := a.isLt
  have hb := b.isLt
  have e₁ : (a.toNat * 256 + b.toNat) / 256 = a.toNat := by omega
  simp only [enc16, e₁, List.cons.injEq, and_true]
  constructor <;> apply BitVec.eq_of_toNat_eq <;> simp only [BitVec.toNat_ofNat] <;> omega

theorem crc16_lt (bs : Bytes) : crc16 bs < 65536 := (crcRegister (0x1021#16) bs).isLt

/-! ### Slot link messages -/

theorem linkBytes_eq (kind number : Nat) (body : Bytes) :
    linkBytes kind number body
      = (enc8 kind ++ enc16 body.length ++ enc8 number ++ body)
        ++ enc16 (crc16 (enc8 kind ++ enc16 body.length ++ enc8 number ++ body)) := rfl

@[simp] theorem linkBytes_length (kind number : Nat) (body : Bytes) : (linkBytes kind number body).length = body.length + 6 := by
  simp [linkBytes_eq]
  omega

/-- R53, R204: a message the layout gives is read as its kind, its number and its body. -/
theorem parseLink_linkBytes (kind number : Nat) (body : Bytes) (hk : kind < 256) (hb : body.length < 65536) :
    parseLink (linkBytes kind number body) = some { kind := kind, number := number % 256, body := body } := by
  have hd := enc16_numAt body.length hb
  have hc := enc16_numAt _ (crc16_lt (enc8 kind ++ enc16 body.length ++ enc8 number ++ body))
  have ht : (linkBytes kind number body).take ((linkBytes kind number body).length - 2)
      = enc8 kind ++ enc16 body.length ++ enc8 number ++ body := by
    rw [linkBytes_length, linkBytes_eq, List.take_append_of_le_length (by simp; omega), List.take_of_length_le (by simp; omega)]
  have hn : numAt16 (linkBytes kind number body) ((linkBytes kind number body).length - 2)
      = crc16 (enc8 kind ++ enc16 body.length ++ enc8 number ++ body) := by
    have hl : (enc8 kind ++ enc16 body.length ++ enc8 number ++ body).length = body.length + 4 := by simp; omega
    rw [linkBytes_length, linkBytes_eq]
    generalize enc8 kind ++ enc16 body.length ++ enc8 number ++ body = m at hl hc ⊢
    have e₁ : byteAt (m ++ enc16 (crc16 m)) (body.length + 6 - 2) = (BitVec.ofNat 8 (crc16 m / 256)).toNat := by
      unfold byteAt
      rw [List.getD_append_right _ _ _ _ (by omega), show body.length + 6 - 2 - m.length = 0 by omega]
      rfl
    have e₂ : byteAt (m ++ enc16 (crc16 m)) (body.length + 6 - 2 + 1) = (BitVec.ofNat 8 (crc16 m)).toNat := by
      unfold byteAt
      rw [List.getD_append_right _ _ _ _ (by omega), show body.length + 6 - 2 + 1 - m.length = 1 by omega]
      rfl
    rw [numAt16, e₁, e₂, hc]
  have h₁ : numAt16 (linkBytes kind number body) 1 = body.length := hd
  have h₀ : byteAt (linkBytes kind number body) 0 = kind := by
    show (BitVec.ofNat 8 kind).toNat = kind
    simp only [BitVec.toNat_ofNat]
    omega
  have h₃ : byteAt (linkBytes kind number body) 3 = number % 256 := by
    show (BitVec.ofNat 8 number).toNat = number % 256
    simp only [BitVec.toNat_ofNat]
  have hbody : ((linkBytes kind number body).drop 4).take ((linkBytes kind number body).length - 6) = body := by
    rw [linkBytes_length]
    show (body ++ enc16 _).take (body.length + 6 - 6) = body
    simp
  unfold parseLink
  rw [if_neg (by simp), if_neg (by rw [ht, hn]; simp), if_neg (by rw [h₁]; simp), h₀, h₃, hbody]

/-- A message that parses is the one the layout gives for what was read. -/
theorem linkBytes_of_parseLink {m : Bytes} {f : LinkFrame} (h : parseLink m = some f) :
    m = linkBytes f.kind f.number f.body := by
  unfold parseLink at h
  split at h
  · cases h
  · split at h
    · cases h
    · split at h
      · cases h
      · rename_i h₁ h₂ h₃
        have hf := (Option.some.inj h).symm
        clear h
        subst hf
        have hm : ∃ b₀ b₁ b₂ b₃ rest, m = b₀ :: b₁ :: b₂ :: b₃ :: rest := by
          clear h₂ h₃
          rcases m with _ | ⟨b₀, _ | ⟨b₁, _ | ⟨b₂, _ | ⟨b₃, rest⟩⟩⟩⟩
          · simp at h₁
          · simp at h₁
          · simp at h₁
          · simp at h₁
          · exact ⟨_, _, _, _, _, rfl⟩
        obtain ⟨b₀, b₁, b₂, b₃, rest, rfl⟩ := hm
        simp only [List.length_cons, not_lt, ne_eq, not_not] at h₁ h₂ h₃
        have hr : 2 ≤ rest.length := by omega
        obtain ⟨body, c₁, c₂, rfl⟩ : ∃ body c₁ c₂, rest = body ++ [c₁, c₂] := by
          refine ⟨rest.take (rest.length - 2), rest[rest.length - 2], rest[rest.length - 1], ?_⟩
          conv_lhs => rw [← List.take_append_drop (rest.length - 2) rest]
          congr 1
          rw [List.drop_eq_getElem_cons (by omega), List.drop_eq_getElem_cons (by omega), List.drop_of_length_le (by omega)]
          congr 2
          congr 1
          omega
        have hlen : (body ++ [c₁, c₂]).length + 1 + 1 + 1 + 1 - 6 = body.length := by simp
        have h1 : b₁.toNat * 256 + b₂.toNat = body.length := by rw [hlen] at h₃; exact h₃
        have e₀ : enc8 b₀.toNat = [b₀] := by simp [enc8]
        have e₃ : enc8 b₃.toNat = [b₃] := by simp [enc8]
        have ht : (b₀ :: b₁ :: b₂ :: b₃ :: (body ++ [c₁, c₂])).take ((body ++ [c₁, c₂]).length + 1 + 1 + 1 + 1 - 2)
            = b₀ :: b₁ :: b₂ :: b₃ :: body := by
          have : (body ++ [c₁, c₂]).length + 1 + 1 + 1 + 1 - 2 = body.length + 4 := by simp
          rw [this]
          simp
        have hn : numAt16 (b₀ :: b₁ :: b₂ :: b₃ :: (body ++ [c₁, c₂])) ((body ++ [c₁, c₂]).length + 1 + 1 + 1 + 1 - 2)
            = c₁.toNat * 256 + c₂.toNat := by
          have : (body ++ [c₁, c₂]).length + 1 + 1 + 1 + 1 - 2 = body.length + 4 := by simp
          rw [this]
          have e₁ : byteAt (b₀ :: b₁ :: b₂ :: b₃ :: (body ++ [c₁, c₂])) (body.length + 4) = c₁.toNat := by
            simp [byteAt]
          have e₂ : byteAt (b₀ :: b₁ :: b₂ :: b₃ :: (body ++ [c₁, c₂])) (body.length + 4 + 1) = c₂.toNat := by
            rw [show body.length + 4 + 1 = body.length + 1 + 4 by omega]
            simp [byteAt]
          rw [numAt16, e₁, e₂]
        rw [ht, hn] at h₂
        have hb : ((b₀ :: b₁ :: b₂ :: b₃ :: (body ++ [c₁, c₂])).drop 4).take ((body ++ [c₁, c₂]).length + 1 + 1 + 1 + 1 - 6)
            = body := by rw [hlen]; simp
        simp only [List.length_cons, hb]
        have e : (enc8 (byteAt (b₀ :: b₁ :: b₂ :: b₃ :: (body ++ [c₁, c₂])) 0) ++ enc16 body.length
            ++ enc8 (byteAt (b₀ :: b₁ :: b₂ :: b₃ :: (body ++ [c₁, c₂])) 3) ++ body) = b₀ :: b₁ :: b₂ :: b₃ :: body := by
          rw [← h1, enc16_of_bytes]
          show enc8 b₀.toNat ++ [b₁, b₂] ++ enc8 b₃.toNat ++ body = _
          rw [e₀, e₃]
          rfl
        rw [linkBytes_eq, e, h₂, enc16_of_bytes]
        rfl

end Sys2Proof.Machine
end

