-- ==== Sys2Proof/WellFormed.lean ====
section
/-! DEFINITION. Which commands are well formed: a row's command carries what the row's name says it is. The meanings do not rest
on it: they read the bytes themselves. -/

namespace Sys2Proof

open Machine

/-- A request fits a frame of 1,454 bytes with its header and CRC (R139, R174). -/
def payloadFits (payload : Bytes) : Bool := decide (payload.length + 10 ≤ Config.frameMax)

/-- A message of the card fits the slot link's longest, 4 bytes of header, 256 of body and 2 of CRC (03, "MESSAGES"), and its
first byte is the kind code given (R204). -/
def messageFits (kind : Nat) (message : Bytes) : Bool :=
  decide (1 ≤ message.length ∧ message.length ≤ 262) && decide (byteAt message 0 = kind)

/-- A frame that the Service Request Queue takes (R139, R174). -/
def isServiceFrame (frame : Bytes) : Bool :=
  decide (classify (received frame) = .service) && decide (10 ≤ (received frame).length)

/-- Whether a command is what its row names. -/
def Instr.wf : Instr → Bool
  | .powerOn => true
  | .segIdent _ _ _ payload => payloadFits payload
  | .segCycle _ _ _ payload => payloadFits payload
  | .segBudget _ _ _ payload => payloadFits payload
  | .segAttn _ _ _ payload => payloadFits payload
  | .segReset _ _ _ payload => payloadFits payload
  | .expLoad _ _ _ payload => payloadFits payload
  | .expClear _ _ _ payload => payloadFits payload
  | .expRead _ _ _ payload => payloadFits payload
  | .psetOpen _ _ _ payload => payloadFits payload
  | .psetWrite _ _ _ payload => payloadFits payload
  | .psetClose _ _ _ payload => payloadFits payload
  | .psetDrop _ _ _ payload => payloadFits payload
  | .psetRead _ _ _ payload => payloadFits payload
  | .psetList _ _ _ payload => payloadFits payload
  | .slotRead _ _ _ payload => payloadFits payload
  | .slotHold _ _ _ payload => payloadFits payload
  | .slotRelease _ _ _ payload => payloadFits payload
  | .slotRestart _ _ _ payload => payloadFits payload
  | .slotWithdraw _ _ _ payload => payloadFits payload
  | .mapRead _ _ _ payload => payloadFits payload
  | .evtRead _ _ _ payload => payloadFits payload
  | .unknownRequest _ code _ _ payload => decide (requestName code = none) && payloadFits payload
  | .serviceRequestArrival frame => isServiceFrame frame
  | .cycleFrame frame => decide (classify (received frame) = .cycle)
  | .downstreamFrameDiscard frame => decide (classify (received frame) ≠ .cycle) && !isServiceFrame frame
  | .cycleLossTimerExpiry => true
  | .localTick => true
  | .transmitterFree => true
  | .returnFrameSent => true
  | .serviceResponseSent => true
  | .presenceLineAssert _ => true
  | .presenceLineDrop _ => true
  | .presentTimerExpiry _ => true
  | .absentTimerExpiry _ => true
  | .inrushMinimumExpiry _ => true
  | .powerGood _ => true
  | .powerGoodTimeout _ => true
  | .trip _ => true
  | .runPhaseTimerExpiry _ => true
  | .turnaroundExpiry _ => true
  | .trainEcho _ message => messageFits kindTrainEcho message
  | .echoWaitExpiry _ => true
  | .trainingAttemptTimeout _ => true
  | .controlAnswer _ message => messageFits kindControlAnswer message
  | .controlAnswerTimeout _ => true
  | .bulkAck _ message => messageFits kindBulkAck message
  | .bulkWait _ message => messageFits kindBulkWait message
  | .bulkRefuse _ message => messageFits kindBulkRefuse message
  | .corruptBulkAnswer _ message => decide (message.length ≤ 262)
  | .bulkAnswerTimeout _ => true
  | .bulkBackoffExpiry _ => true
  | .bulkWaitTimerExpiry _ => true
  | .cyclicIn _ message => messageFits kindCyclicIn message
  | .linkMessageDiscard _ message => decide (message.length ≤ 262)
  | .linkAliveChange _ _ => true
  | .linkDrop _ => true
  | .slotLinkMessageEnd _ => true

end Sys2Proof
end

