-- ==== Sys2Proof/Tests/Slice0.lean ====
section
/-! SUPPORT. Tests of the model: what WellFormed refuses, the spec's worked cases with the values the spec gives, and for every
statement with hypotheses a state and operands that meet them. -/

namespace Sys2Proof.Tests

open Sys2Proof.Machine

/-! ### WellFormed refuses an ill-formed term for each check -/

theorem test_wf_payload_fits_a_frame :
    (Instr.segIdent 0 255 0 (zeros 1445)).wf = false ∧ (Instr.segIdent 0 255 0 (zeros 1444)).wf = true := by decide +kernel

theorem test_wf_unknown_request_of_a_known_code : (Instr.unknownRequest 0 1 255 0 []).wf = false := by decide

/-- A SERVICE frame is of kind 2 and of 10 bytes or more. -/
theorem test_wf_service_frame :
    (Instr.serviceRequestArrival (withCrc32 (zeros 6))).wf = false
      ∧ (Instr.serviceRequestArrival (withCrc32 [2, 0, 1, 255, 0])).wf = false
      ∧ (Instr.serviceRequestArrival (withCrc32 [2, 0, 1, 255, 0, 0])).wf = true := by decide +kernel

/-- A cycle frame is of kind 1; a discarded frame is neither a cycle frame nor a SERVICE frame. -/
theorem test_wf_other_frames :
    (Instr.cycleFrame (withCrc32 [2, 0, 1, 255, 0, 0])).wf = false
      ∧ (Instr.downstreamFrameDiscard [1, 0, 0, 0]).wf = false
      ∧ (Instr.downstreamFrameDiscard (withCrc32 [2, 0, 1, 255, 0, 0])).wf = false
      ∧ (Instr.downstreamFrameDiscard [1, 0, 0]).wf = true := by decide +kernel

/-- A message has the kind of its row, at least one byte and at most 262. -/
theorem test_wf_messages :
    (Instr.trainEcho 0 [4]).wf = false ∧ (Instr.cyclicIn 0 []).wf = false ∧ (Instr.controlAnswer 0 (4 :: zeros 262)).wf = false
      ∧ (Instr.corruptBulkAnswer 0 (zeros 263)).wf = false ∧ (Instr.linkMessageDiscard 0 (zeros 263)).wf = false := by decide +kernel

/-! ### A bench: one slot at work beside eleven empty ones -/

/-- The state with one slot (number 4) as given, the power account that goes with it, and a cycle configured. -/
def bench (x : Slot) : State :=
  { State.reset with
    slots := State.reset.slots.set 4 x
    power := { committed := x.ctx.heldDraw, budget := 5000
               queue := x.ctx.entry.map fun e => { slot := 4, stage := e.1, increase := e.2, priority := .normal, passedOver := false }
               owner := if x.ctx.state.inrush then some 4 else none }
    trunk := { State.reset.trunk with period := 500, outLength := 200, inLength := 240, tickTimer := some 500000 } }

theorem bench_quiet (x : Slot) : (bench x).quiet := ⟨rfl, fun _ => rfl⟩

theorem bench_slot (x : Slot) : (bench x).slot 4 = x := Vector.getElem_set_self (by decide : 4 < 12)

theorem bench_other (x : Slot) {i : SlotIx} (h : i ≠ 4) : (bench x).slot i = Slot.reset false false := by
  have e : (bench x).slot i = State.reset.slot i :=
    Vector.getElem_set_ne (by decide : 4 < 12) i.isLt fun e => h (Fin.ext e.symm)
  rw [e]
  exact Vector.getElem_replicate i.isLt

/-- What the power account asks of the slot on the bench. -/
def powered (x : Slot) : Bool :=
  decide (x.ctx.state.powered = none ∨ x.ctx.state.powered = some x.power.switchOn)
    && decide (x.ctx.heldDraw = if x.power.switchOn then x.ctx.draw else 0)
    && decide ((x.power.deadlineTimer.isSome ∨ x.power.minimumTimer.isSome ∨ x.power.goodSeen = true) →
        x.ctx.state = .standbyInrush)
    && decide (x.power.runPhaseTimer.isSome → x.ctx.state = .runInrush)
    && decide (x.ctx.state = .draining → x.ctx.reason = some .linkLost → x.power.switchOn = true)

theorem bench_powerOk (x : Slot) (h : powered x = true) : PowerOk (bench x) := by
  simp only [powered, Bool.and_eq_true, decide_eq_true_eq] at h
  obtain ⟨⟨⟨⟨hs, hd⟩, ht⟩, hr⟩, hl⟩ := h
  have held : ∀ i, ((bench x).ctx i).heldDraw = if i = 4 then x.ctx.heldDraw else 0 := by
    intro i
    by_cases e : i = 4
    · subst e; simp only [State.ctx, bench_slot, if_true]
    · simp only [State.ctx, bench_other x e, if_neg e]; rfl
  refine ⟨fun i b => ?_, fun i => ?_, ?_, fun i => ?_, fun i => ?_, fun i => ?_, fun i => ?_, fun i => ?_, fun i => ?_⟩
  case refine_3 =>
    rw [show (allSlots.map fun i => ((bench x).ctx i).heldDraw) = allSlots.map fun i => if i = 4 then x.ctx.heldDraw else 0
      from List.map_congr_left fun i _ => held i]
    simp [allSlots, bench]
  all_goals by_cases e : i = 4
  all_goals first
    | subst e
      simp only [State.ctx, State.slotPower, bench_slot]
    | simp only [State.ctx, State.slotPower, bench_other x e]
  · intro hb; rcases hs with hs | hs <;> rw [hs] at hb <;> simp_all
  · intro hb; cases hb; rfl
  · exact hd
  · rfl
  · simp only [bench, List.filter_map, List.map_map]
    induction x.ctx.entry with
    | nil => rfl
    | cons a l ih => simp [Function.comp_def] at *
  · simp only [bench]
    rw [List.filter_eq_nil_iff.2 (fun a ha => by
      simp only [List.mem_map] at ha
      obtain ⟨y, -, rfl⟩ := ha
      simpa using fun h => e h.symm)]
    rfl
  · simp only [bench]; split <;> simp_all
  · simp only [bench]
    refine ⟨fun hb => ?_, fun hb => by cases hb⟩
    split at hb <;> simp_all
  · exact fun hb => ht (hb.elim .inl fun h => .inr (.inl h))
  · intro hb; rcases hb with hb | hb <;> cases hb
  · exact fun hb => ht (.inr (.inr hb))
  · intro hb; cases hb
  · exact hr
  · intro hb; cases hb
  · exact hl
  · intro hb; cases hb

/-- What the window map asks of the slot on the bench. -/
def mapped (x : Slot) : Bool :=
  (match x.map.output, x.map.input with
    | .vacant, .vacant => x.map.tables.isNone && x.map.latest.isNone
    | .armed v, .armed w | .live v, .live w => decide (v.offset + v.length ≤ 200 ∧ w.offset + w.length ≤ 240)
    | .retiring _, .retiring _ => true
    | _, _ => false)
  && decide (x.map.input.isArmed = true ↔ x.ctx.state = .admitPending)
  && decide (x.map.input.isLive = true ↔ x.ctx.state = .running)
  && decide (x.ctx.state = .draining → x.map.input.isRetiring = true)
  && decide (x.ctx.state = .starting → x.map.input = .vacant)

theorem bench_mapOk (x : Slot) (h : mapped x = true) : MapOk (bench x) := by
  simp only [mapped, Bool.and_eq_true, decide_eq_true_eq] at h
  obtain ⟨⟨⟨⟨hp, ha⟩, hl⟩, hd⟩, hs⟩ := h
  have hout : ∀ w, x.map.output.claimed = some w → w.offset + w.length ≤ 200 := by
    intro w hw
    split at hp <;> simp_all [Window.claimed]
  have hin : ∀ w, x.map.input.claimed = some w → w.offset + w.length ≤ 240 := by
    intro w hw
    split at hp <;> simp_all [Window.claimed]
  have none_claimed : ∀ {i : SlotIx} {w : Span}, i ≠ 4 → ¬ ((bench x).map i).input.claimed = some w := by
    intro i w e hw
    simp only [State.map, bench_other x e] at hw
    cases hw
  refine ⟨fun i => ?_, fun i => ?_, fun i => ?_, fun i => ?_, fun i => ?_, fun i w => ?_, fun i w => ?_, fun i j v w k hij hv hw => ?_⟩
  case refine_8 =>
    by_cases e : i = 4
    · exact absurd hw (none_claimed fun h => hij (e.trans h.symm))
    · exact absurd hv (none_claimed e)
  all_goals by_cases e : i = 4
  all_goals first
    | subst e
      simp only [State.ctx, State.map, bench_slot]
    | simp only [State.ctx, State.map, bench_other x e]
  · unfold SlotMap.paired; split at hp <;> simp_all
  · exact ⟨rfl, rfl⟩
  · exact ha
  · decide
  · exact hl
  · decide
  · exact hd
  · intro h; cases h
  · exact hs
  · intro h; cases h
  · exact hout w
  · intro h; cases h
  · exact hin w
  · intro h; cases h

/-! ### The card, the record and the admitted layout of the spec's worked case (04, A COMPLETE WALK; 05, A SUBSTITUTE WITH AN
ABSENT AND AN EXTRA SUB-MODULE; the values stand in the tables there) -/

def cardA : Identity :=
  { vendor := 412, cardType := 7010, revision := { major := 2, minor := 3 }, serial := 60001, standbyDraw := 120, runDraw := 380
    maxRate := 2, maxBulk := 128, baseOut := 8, baseIn := 4
    subs := [{ position := 1, type := 902, outBytes := 16, inBytes := 0, outOffset := 8, inOffset := 4 },
             { position := 2, type := 903, outBytes := 4, inBytes := 4, outOffset := 24, inOffset := 4 },
             { position := 5, type := 901, outBytes := 0, inBytes := 16, outOffset := 28, inOffset := 8 }]
    co := 28, ci := 24, param := some { format := 33, maxLength := 2048 } }

def recordA : ExpRecord :=
  { enabled := true
    primary := { vendor := 412, cardType := 7000, minRev := { major := 1, minor := 0 }, maxRev := { major := 1, minor := 9 } }
    substitutes :=
      [{ vendor := 412, cardType := 7005, minRev := { major := 2, minor := 0 }, maxRev := { major := 2, minor := 9 } },
       { vendor := 412, cardType := 7010, minRev := { major := 2, minor := 0 }, maxRev := { major := 3, minor := 0 } }]
    baseOut := 8, baseIn := 8
    subs := [{ position := 1, type := 902, outBytes := 16, inBytes := 0, required := true },
             { position := 2, type := 903, outBytes := 4, inBytes := 4, required := true },
             { position := 3, type := 950, outBytes := 8, inBytes := 8, required := false }]
    set := some 12, outOffset := 100, inOffset := 60, rateCap := 3, drawCap := 500, priority := .normal, admitMode := .auto
    fill := .hold, recover := true }

def layoutA : Layout :=
  { outWindow := { offset := 100, length := 36 }, inWindow := { offset := 60, length := 20 }
    outTable := [{ offset := 0, length := 8, source := .card 0 }, { offset := 8, length := 16, source := .card 8 },
                 { offset := 24, length := 4, source := .card 24 }, { offset := 28, length := 8, source := .fill }]
    inTable := [{ offset := 0, length := 4, source := .card 0 }, { offset := 4, length := 4, source := .fill },
                { offset := 8, length := 4, source := .card 4 }, { offset := 12, length := 8, source := .fill }]
    fill := .hold, set := some 12, adapted := true }

/-- The card's descriptor space. -/
def spaceA : Bytes :=
  enc8 1 ++ enc8 10 ++ enc16 16 ++ (enc16 412 ++ enc16 7010 ++ enc8 2 ++ enc8 3 ++ enc32 60001) ++ zeros 2
    ++ enc8 2 ++ enc8 4 ++ enc16 24 ++ (enc16 120 ++ enc16 380)
    ++ enc8 64 ++ enc8 40 ++ enc16 68 ++ zeros 40
    ++ enc8 3 ++ enc8 3 ++ enc16 76 ++ (enc8 2 ++ enc16 128) ++ zeros 1
    ++ enc8 4 ++ enc8 20 ++ enc16 100 ++ (enc16 8 ++ enc16 4 ++ enc8 3 ++ (enc8 5 ++ enc16 901 ++ enc8 0 ++ enc8 16)
      ++ (enc8 1 ++ enc16 902 ++ enc8 16 ++ enc8 0) ++ (enc8 2 ++ enc16 903 ++ enc8 4 ++ enc8 4))
    ++ enc8 5 ++ enc8 4 ++ enc16 0 ++ (enc16 33 ++ enc16 2048)

/-- A walk over a descriptor space, at most `n` further reads. -/
def walkOver (space : Bytes) : Nat → WalkStep → WalkStep
  | n + 1, .read w offset length => walkOver space n (walkStep w ((space.drop offset).take length))
  | _, x => x

theorem test_walk_complete : walkOver spaceA 11 (.read Walk.initial 0 4) = .complete cardA := by decide +kernel

theorem test_walk_chain_order : walkStep Walk.initial [2, 4, 0, 16] = .failed ⟨.chainOrder, 2⟩ := by decide
theorem test_walk_chain_range : walkStep Walk.initial [1, 10, 0, 18] = .failed ⟨.chainRange, 18⟩ := by decide
theorem test_walk_body_past_the_space :
    walkStep { Walk.initial with offset := 960, number := 4, kinds := [.ident, .supply, .link] } [4, 100, 0, 0]
      = .failed ⟨.chainRange, 960⟩ := by decide
theorem test_walk_chain_dup :
    walkStep { Walk.initial with offset := 24, number := 5, kinds := [.ident, .supply, .link] } [3, 3, 0, 32]
      = .failed ⟨.chainDup, 24⟩ := by decide
theorem test_walk_chain_long :
    walkStep { Walk.initial with offset := 200, number := 16, kinds := [.ident] } [64, 4, 0, 240]
      = .failed ⟨.chainLong, 200⟩ := by decide
theorem test_walk_block_short :
    walkStep { Walk.initial with offset := 24, number := 3, kinds := [.ident, .supply] } [3, 2, 0, 76]
      = .failed ⟨.blockShort, 24⟩ := by decide
theorem test_walk_repeated_position :
    layoutFault 76 (enc16 8 ++ enc16 4 ++ [2, 3, 0, 1, 4, 4, 3, 0, 1, 4, 4]) = some ⟨.layoutBad, 3⟩ := by decide
theorem test_walk_output_total :
    layoutFault 76 (enc16 200 ++ enc16 4 ++ [2, 1, 0, 1, 40, 4, 2, 0, 1, 30, 4]) = some ⟨.layoutBad, 5⟩ := by decide

/-- Set 12 is the only CLOSED set. -/
def only12 (n : SetIx) : Bool := decide (n = 12)

theorem test_match_substitute : matchCard only12 cardA (some recordA)
    = .forward { cls := .compatible, sub := none, substitute := some 1 } layoutA 2 3 := by decide
theorem test_match_revision_too_high :
    matchCard only12 { cardA with revision := { major := 3, minor := 1 } } (some recordA)
      = .parked .mismatch { cls := .mismatch, sub := some .identity, substitute := none } none .none 0 := by decide
theorem test_match_exact_candidate_is_not_reconsidered :
    matchCard only12 { cardA with cardType := 7000, revision := { major := 1, minor := 4 } } (some recordA)
      = .parked .mismatch { cls := .mismatch, sub := some .size, substitute := none } none .none 0 := by decide
/-- What has been found before position 2: the base fill on input. -/
theorem test_match_other_type_at_position_2 :
    matchCard only12 { cardA with subs := cardA.subs.map fun m => if m.position = 2 then { m with type := 904 } else m }
        (some recordA)
      = .parked .mismatch { cls := .mismatch, sub := some .submod, substitute := some 1 } (some 2) .none 1 := by decide
theorem test_match_run_draw_too_high : matchCard only12 { cardA with runDraw := 600 } (some recordA)
    = .parked .mismatch { cls := .mismatch, sub := some .power, substitute := some 1 } none .none 3 := by decide
/-- A substitute that is too long on input: nothing is adapted where its output fits, and the base fill on output where it is short. -/
theorem test_match_substitute_too_long :
    let found := fun (out number : Nat) => matchCard only12 { cardA with baseOut := out, baseIn := 9 } (some recordA)
      = .parked .mismatch { cls := .mismatch, sub := some .size, substitute := some 1 } none .none number
    found 8 0 ∧ found 6 1 := by decide
theorem test_match_set_open : matchCard (fun _ => false) cardA (some recordA)
    = .parked .setUnavailable { cls := .compatible, sub := none, substitute := some 1 } none (.unavailable 12) 3 := by decide

/-! ### Wire and figures -/

/-- The check values published for the two parameter sets of R198 (the CRC of the nine digits). -/
theorem test_crc_of_the_nine_digits :
    crc16 [0x31, 0x32, 0x33, 0x34, 0x35, 0x36, 0x37, 0x38, 0x39] = 0x29B1
      ∧ crc32 [0x31, 0x32, 0x33, 0x34, 0x35, 0x36, 0x37, 0x38, 0x39] = 0xFC891918 := by decide +kernel

/-- R196, R32: the flags of SLOT_READ share the byte behind the good-exchange run, the hold flag in bit 0, then the switch, the hold
point and the lost mark. -/
theorem test_slot_read_flags :
    let report : SlotReport := { ctx := { Context.reset with hold := true }, switchOn := true, link := .up, lost := true
                                 atHoldPoint := false, headroom := 0 }
    byteAt report.bytes 11 = 1 + 2 + 8 := by decide +kernel

/-- 07, SEGMENT CHECK AT THE LIMITS. -/
theorem test_segment_check_at_the_limits :
    State.reset.cycleRefusal 125 1024 1000 200 = none
      ∧ State.reset.cycleRefusal 125 1024 1001 200
        = some { completion := .timing, field := 0, payload := .lineTiming true }
      ∧ State.reset.cycleRefusal 125 1025 1000 200
        = some { completion := .timing, field := 0, payload := .lineTiming false }
      ∧ State.reset.cycleRefusal 251 1440 1440 1024
        = some { completion := .timing, field := 0, payload := .lineTiming true }
      ∧ State.reset.cycleRefusal 252 1440 1440 1024 = none
      ∧ State.reset.cycleRefusal 124 0 0 64 = some { completion := .range, field := 0, payload := .none } := by decide +kernel

/-- 08, THE SLOT CHECK. -/
theorem test_slot_check :
    slotNeed 200 1 64 96 = 166000 ∧ slotNeed 200 0 64 96 = 303600
      ∧ slotNeed 200 0 64 96 ≤ 304 * 1000 ∧ ¬ slotNeed 200 0 64 96 ≤ 303 * 1000 := by decide

/-- 08, GATHERING THROUGH ADAPTATION TABLES: the card's 28 bytes are the frame's bytes 100 to 127. -/
theorem test_outputs_gathered :
    let frame : Bytes := (List.range 200).map (BitVec.ofNat 8)
    (List.range 28).map (outputByte frame 200 100 layoutA.outTable)
      = (List.range 28).map fun k => BitVec.ofNat 8 (100 + k) := by decide +kernel

/-- The same case on input: card bytes 0 to 3 at 60 to 63 and 4 to 7 at 68 to 71, zeros elsewhere in the window. -/
theorem test_inputs_gathered :
    let card : Bytes := (List.range 24).map fun k => BitVec.ofNat 8 (k + 1)
    (List.range 20).map (segmentByte layoutA.inTable (some card))
      = [1, 2, 3, 4, 0, 0, 0, 0, 5, 6, 7, 8, 0, 0, 0, 0, 0, 0, 0, 0] := by decide +kernel

/-- 06, BLOCK ALLOCATION, steps 1 to 8: the blocks each set holds and the blocks left. -/
theorem test_block_allocation :
    let s := (State.reset.store.openSet 5 33).writeSet 5 (zeros 300)
    let s := ((s.openSet 6 40).writeSet 6 (zeros 100)).writeSet 5 (zeros 512)
    let t := ((s.dropSet 6).writeSet 5 (zeros 200)).writeSet 5 (zeros 20)
    (s.set 5).blocks = [0, 1, 3, 4] ∧ (s.set 6).blocks = [2] ∧ s.freeCount = 251
      ∧ (t.set 5).blocks = [0, 1, 3, 4, 2] ∧ (t.set 5).length = 1032 ∧ t.freeCount = 251
      ∧ (t.set 5).address 1030 = 2 * 256 + 6 := by decide +kernel

/-! ### Slots of the bench -/

/-- Slot 4 in a state of the bring-up or beyond, with the worked case's card, record and layout. -/
def slotIn (st : CtxState) (reason : Option Reason) : Slot :=
  let c : Context := { Context.reset with
    state := st, reason := reason, identity := some cardA, layout := some layoutA, rateCode := 2 }
  let on := st.powered.getD true
  let inrush : Timer := if st = .standbyInrush then some 50000000 else none
  { ctx := { c with heldDraw := if on then c.draw else 0 }
    power := { SlotPower.reset true with
      debouncer := .present, switchOn := on, deadlineTimer := inrush, runPhaseTimer := if st = .runInrush then some 20000000 else none }
    link := { LinkEngine.reset true false with link := .up, watch := true }
    map := (match st with
      | .admitPending => { SlotMap.reset with output := .armed layoutA.outWindow, input := .armed layoutA.inWindow }
      | .running => { SlotMap.reset with output := .live layoutA.outWindow, input := .live layoutA.inWindow }
      | .draining => { SlotMap.reset with output := .retiring layoutA.outWindow, input := .retiring layoutA.inWindow }
      | _ => SlotMap.reset)
    expected := some recordA }

/-- A slot of the bench with another link engine and context fields that the invariants do not ask about. -/
def slotWith (x : Slot) (f : Context → Context) (g : LinkEngine → LinkEngine) : Slot := { x with ctx := f x.ctx, link := g x.link }

theorem slotIn_powered (st : CtxState) (r : Option Reason) : powered (slotIn st r) = true := by
  cases st <;> rcases r with _ | r <;> try cases r
  all_goals decide

theorem slotIn_mapped (st : CtxState) (r : Option Reason) : mapped (slotIn st r) = true := by
  cases st <;> rfl

/-- The premises of most statements: a quiet queue, a right power account and a right map. -/
def Ready (s : State) : Prop := s.quiet ∧ PowerOk s ∧ MapOk s

theorem ready_of (x : Slot) (hp : powered x = true) (hm : mapped x = true) : Ready (bench x) :=
  ⟨bench_quiet x, bench_powerOk x hp, bench_mapOk x hm⟩

theorem ready_in (st : CtxState) (r : Option Reason) : Ready (bench (slotIn st r)) :=
  ready_of _ (slotIn_powered st r) (slotIn_mapped st r)

theorem ctx_in (st : CtxState) (r : Option Reason) :
    ((bench (slotIn st r)).ctx 4).state = st ∧ ((bench (slotIn st r)).ctx 4).reason = r := by
  simp only [State.ctx, bench_slot]; exact ⟨rfl, rfl⟩

/-- Windows that are still RETIRING, as a SLOT_RESTART leaves them. -/
def retiringA : SlotMap :=
  { SlotMap.reset with output := .retiring layoutA.outWindow, input := .retiring layoutA.inWindow }

/-- A slot that waits in READY, its windows as given. -/
def waitingWith (m : SlotMap) : Slot := { slotIn .ready none with map := m }

/-- The bench with slot 2 waiting in READY beside slot 4. -/
def pair (x : Slot) (m : SlotMap) : State :=
  { (bench x).setSlot 2 (waitingWith m) with
    power := { (bench x).power with committed := x.ctx.heldDraw + (waitingWith m).ctx.heldDraw } }

theorem pair_slot2 (x : Slot) (m : SlotMap) : (pair x m).slot 2 = waitingWith m := Vector.getElem_set_self (by decide : 2 < 12)

theorem pair_other (x : Slot) (m : SlotMap) {i : SlotIx} (h : i ≠ 2) : (pair x m).slot i = (bench x).slot i :=
  Vector.getElem_set_ne (by decide : 2 < 12) i.isLt fun e => h (Fin.ext e.symm)

theorem pair_slot4 (x : Slot) (m : SlotMap) : (pair x m).slot 4 = x := (pair_other x m (by decide)).trans (bench_slot x)

theorem pair_ready (x : Slot) (m : SlotMap) (hp : powered x = true) (hm : mapped x = true)
    (h : m = SlotMap.reset ∨ m = retiringA) : Ready (pair x m) := by
  have p := bench_powerOk x hp
  have q := bench_mapOk x hm
  have held : ∀ i, ((pair x m).ctx i).heldDraw
      = if i = 4 then x.ctx.heldDraw else if i = 2 then (waitingWith m).ctx.heldDraw else 0 := by
    intro i
    by_cases e : i = 2
    · subst e; simp only [State.ctx, pair_slot2]; rfl
    · by_cases e' : i = 4
      · subst e'; simp only [State.ctx, pair_slot4, if_true]
      · simp only [State.ctx, pair_other x m e, bench_other x e', if_neg e, if_neg e']; rfl
  have vacant : ∀ w, (waitingWith m).map.input.claimed ≠ some w ∧ (waitingWith m).map.output.claimed ≠ some w := by
    intro w; rcases h with rfl | rfl <;> exact ⟨nofun, nofun⟩
  refine ⟨⟨(bench_quiet x).1, (bench_quiet x).2⟩,
    ⟨fun i => ?_, fun i => ?_, ?_, fun i => ?_, fun i => ?_, fun i => ?_, fun i => ?_, fun i => ?_, fun i => ?_⟩,
    ⟨fun i => ?_, fun i => ?_, fun i => ?_, fun i => ?_, fun i => ?_, fun i w => ?_, fun i w => ?_, fun i j v w k hij hv hw => ?_⟩⟩
  case refine_3 =>
    rw [show (allSlots.map fun i => ((pair x m).ctx i).heldDraw) = allSlots.map fun i =>
      if i = 4 then x.ctx.heldDraw else if i = 2 then (waitingWith m).ctx.heldDraw else 0 from List.map_congr_left fun i _ => held i]
    simp [allSlots, pair, Nat.add_comm]
  case refine_17 =>
    by_cases e : i = 2
    · subst e; simp only [State.map, pair_slot2] at hv; exact absurd hv (vacant v).1
    · by_cases e' : j = 2
      · subst e'; simp only [State.map, pair_slot2] at hw; exact absurd hw (vacant w).1
      · simp only [State.map, pair_other x m e] at hv
        simp only [State.map, pair_other x m e'] at hw
        exact q.apart i j v w k hij hv hw
  all_goals by_cases e : i = 2
  all_goals first
    | subst e
      simp only [State.ctx, State.map, State.slotPower, pair_slot2]
    | simp only [State.ctx, State.map, State.slotPower, pair_other x m e]
  · intro b hb; cases hb; rfl
  · exact p.switches i
  · rfl
  · exact p.draws i
  · exact p.entries 2
  · exact p.entries i
  · exact (p.owner 2).trans ⟨nofun, nofun⟩
  · exact p.owner i
  · rintro (h | h) <;> cases h
  · exact p.deadline i
  · nofun
  · exact p.good i
  · nofun
  · exact p.runPhase i
  · nofun
  · exact p.drains i
  · rcases h with rfl | rfl <;> simp [waitingWith, SlotMap.paired, SlotMap.reset, retiringA]
  · exact q.paired i
  · rcases h with rfl | rfl <;> exact ⟨nofun, nofun⟩
  · exact q.armed i
  · rcases h with rfl | rfl <;> exact ⟨nofun, nofun⟩
  · exact q.live i
  · nofun
  · exact q.draining i
  · nofun
  · exact q.starting i
  · exact fun hw => absurd hw (vacant w).2
  · exact q.inOutput i w
  · exact fun hw => absurd hw (vacant w).1
  · exact q.inInput i w

/-- What Rechecked and a mark ask about: slot 4 as given beside a slot that waits in READY without hold. -/
def BesideReady (x : Slot) (m : SlotMap) : Prop :=
  let s := pair x m
  Ready s ∧ s.slot 4 = x ∧ (s.ctx 2).state = .ready ∧ (s.ctx 2).hold = false ∧ s.map 2 = m

theorem besideReady (x : Slot) (hp : powered x = true) (hm : mapped x = true) :
    BesideReady x SlotMap.reset ∧ BesideReady x retiringA := by
  have h : ∀ m, m = SlotMap.reset ∨ m = retiringA → BesideReady x m := fun m h => by
    refine ⟨pair_ready x m hp hm h, pair_slot4 x m, ?_⟩
    simp only [State.ctx, State.map, pair_slot2]
    exact ⟨rfl, rfl, rfl⟩
  exact ⟨h _ (.inl rfl), h _ (.inr rfl)⟩

/-- The two sides of Rechecked: windows that are ARMED and windows that are not; a READY slot whose windows are RETIRING and one whose
windows are not. -/
theorem rechecked_sides :
    (slotIn .admitPending none).map.input.isArmed = true ∧ (slotIn .starting none).map.input.isArmed = false
      ∧ SlotMap.reset.output.isRetiring = false ∧ SlotMap.reset.input.isRetiring = false ∧ retiringA.input.isRetiring = true := by
  decide

/-! ### The quiet of the pair (R52, R70, R71) -/

/-- R52: a card's message that is discarded starts the turnaround, and so does the end of a message of the device. -/
theorem test_every_message_starts_the_turnaround :
    (LinkEngine.reset true false).messageEnds = LinkEngine.reset true false
      ∧ ({ LinkEngine.reset true false with sending := some (.cyclicOut .valid []) } : LinkEngine).messageEnds.turnaround = some 1000
      ∧ ((receive 4 [] (bench (slotIn .running none))).link 4).turnaround = some 1000 := by decide +kernel

/-- R71: an exchange start finds the card still sending: the CYCLIC_OUT waits for the end of its message, which is discarded, and for
the turnaround behind it. -/
theorem test_exchange_waits_for_the_card :
    let x := slotWith (slotIn .running none) id fun l => { l with exchange := some .valid }
    let s := localTick (fun i => i = 4) (bench x)
    let t := receive 4 [] s
    (s.link 4).receiving = true ∧ (s.link 4).sending = none ∧ (s.link 4).next.isSome = true
      ∧ (t.link 4).receiving = false ∧ (t.link 4).sending = none
      ∧ ((turnaroundEnds 4 t).link 4).sending.isSome = true := by decide +kernel

/-- R70: a trip in DRAINING abandons the exchange, a CYCLIC_OUT that waits among it. -/
theorem test_trip_in_draining_abandons_the_exchange :
    let x := slotWith (slotIn .draining (some .command)) id fun l =>
      { l with exchange := some .valid, turnaround := some 1000, next := some (.cyclicOut .valid []) }
    ((switchOff 4 (bench x)).link 4).exchange = none ∧ ((switchOff 4 (bench x)).link 4).next = none := by decide +kernel

/-! ### Every statement's hypotheses can be met

One theorem for each statement that has hypotheses; each shows, for each clause, a state and operands that meet them. -/

theorem witness_StepTakesTheFrontCommand :
    ({ State.reset with pending := [.localTick, .powerOn] } : State).pending = [.localTick, .powerOn] ∧ State.reset.pending = [] :=
  ⟨rfl, rfl⟩

/-- A request as received. -/
def received1 (code target : Byte) (length : BitVec 16) (payload : Bytes) : Request :=
  { tag := 7, code := code, target := target, length := length, payload := payload }

/-- An unknown code; a target of the wrong kind; a length field that disagrees, one above 512, and a length R179 does not give. -/
theorem witness_RequestsAreChecked :
    State.reset.quiet ∧ requestName 0 = none ∧ requestName 1 = some .segIdent
      ∧ ¬ RequestName.segIdent.targetKind.accepts 254 ∧ RequestName.segIdent.targetKind.accepts 255
      ∧ (1 : BitVec 16).toNat ≠ ([] : Bytes).length ∧ 512 < (513 : BitVec 16).toNat
      ∧ ¬ RequestName.segIdent.acceptsLength [0] := by
  refine ⟨⟨rfl, fun _ => rfl⟩, ?_⟩
  simp only [TargetKind.accepts, RequestName.targetKind, RequestName.acceptsLength]
  decide

/-- A state with `n` requests pending, the head ANSWERED, and `m` BUSY answers. -/
def crowded (n m : Nat) : State :=
  let r := received1 1 255 0 []
  let x : Response := { tag := 7, code := 1, target := 255, answer := done .ident, built := 0 }
  { State.reset with
    trunk := { State.reset.trunk with transmitter := .sendingHead }
    requests := { queue := { request := r, state := .answered x } :: List.replicate (n - 1) { request := r, state := .waiting }
                  holding := List.replicate m x, built := m + 1 } }

/-- The bounds of each clause: 1, 3 and 4 pending, 0, 3 and 4 BUSY answers. -/
theorem witness_RequestsJoinTheQueue :
    (crowded 4 4).trunk.transmitter ≠ .free ∧ (crowded 1 0).requests.queue.length = 1 ∧ (crowded 3 0).requests.queue.length = 3
      ∧ (crowded 4 0).requests.queue.length = 4 ∧ (crowded 4 3).requests.holding.length = 3
      ∧ (crowded 4 4).requests.holding.length = 4 := by decide

theorem witness_ServiceFrameCarriesItsRequest :
    (received1 1 255 0 []).payload.length ≤ 1444 ∧ (zeros 1444).length = 1444 :=
  ⟨Nat.zero_le _, List.length_replicate⟩

/-- Three bytes; a kind that is neither; a SERVICE frame whose CRC fails; a SERVICE frame of nine bytes. -/
theorem witness_FramesAreDiscarded :
    ([1, 0, 0] : Bytes).length < 4 ∧ byteAt [3, 0, 0, 0] 0 ≠ 1 ∧ byteAt [3, 0, 0, 0] 0 ≠ 2
      ∧ crc32 (([2, 0, 0, 0, 0, 0, 0, 0, 0, 0] : Bytes).take 6) ≠ numAt32 [2, 0, 0, 0, 0, 0, 0, 0, 0, 0] 6
      ∧ (withCrc32 [2, 0, 0, 0, 0]).length = 9 := by decide +kernel

theorem witness_ReadingRequestsOnlyAnswer : State.reset.quiet ∧ (bench (slotIn .running none)).quiet :=
  ⟨⟨rfl, fun _ => rfl⟩, bench_quiet _⟩

/-- 20,000 mA is accepted, 20,001 mA is not. -/
theorem witness_SegBudgetSetsTheBudget :
    (bench (slotIn .running none)).quiet ∧ (78 : Byte).toNat * 256 + (32 : Byte).toNat = 20000
      ∧ (78 : Byte).toNat * 256 + (33 : Byte).toNat = 20001 := ⟨bench_quiet _, by decide⟩

theorem witness_AttentionRequests : State.reset.quiet ∧ (32 : Byte).toNat ≤ 32 ∧ 32 < (33 : Byte).toNat :=
  ⟨⟨rfl, fun _ => rfl⟩, by decide⟩

/-- P = 500 beside a RUNNING slot; P = 0 with no window claimed; the segment check met with equality (07, at the limits). -/
theorem witness_SegCycleSetsTheConfiguration :
    let s := bench (slotIn .running none)
    s.quiet ∧ CycleInRange 500 200 240 200 ∧ (∀ j, (s.map j).within 136 80) ∧ (∀ j, (s.ctx j).suits 500 200)
      ∧ CycleInRange 0 1440 1440 1024
      ∧ (∀ j, (State.reset.map j).output.claimed = none ∧ (State.reset.map j).input.claimed = none)
      ∧ CycleInRange 125 1024 1000 200 ∧ (14 + 1024 + 12 + 200) * 100 ≤ 125 * 1000 ∧ (38 + 1000 + 12 + 200) * 100 ≤ 125 * 1000 := by
  refine ⟨bench_quiet _, by unfold CycleInRange; decide, fun j => ?_, fun j => ?_, by unfold CycleInRange; decide, by decide,
    by unfold CycleInRange; decide, by decide, by decide⟩
  · by_cases e : j = 4
    · subst e; simp only [State.map, bench_slot]; exact ⟨by simp [slotIn, Window.claimed, layoutA], by simp [slotIn, Window.claimed, layoutA]⟩
    · simp only [State.map, bench_other _ e]; exact ⟨fun w h => (by cases h), fun w h => (by cases h)⟩
  · by_cases e : j = 4
    · subst e; simp only [State.ctx, bench_slot]; intro _; decide
    · simp only [State.ctx, bench_other _ e]; intro h; rcases h with h | h <;> cases h

/-- Each clause: the ranges from either side, P = 0 with a LIVE window, the two segment checks, an output window and an input
window one byte too long, and a RUNNING slot at code 0 that no longer fits P = 125. -/
theorem witness_SegCycleIsRefusedInOrder :
    let s := bench (slotIn .running none)
    s.quiet ∧ 124 < 125 ∧ 16000 < 16001 ∧ 1440 < 1441 ∧ 63 < 64 ∧ 1024 < 1025
      ∧ CycleInRange 0 0 0 64 ∧ (s.map 4).output.claimed ≠ none
      ∧ CycleInRange 125 1025 1000 200 ∧ 125 * 1000 < (14 + 1025 + 12 + 200) * 100
      ∧ CycleInRange 125 1024 1001 200 ∧ 125 * 1000 < (38 + 1001 + 12 + 200) * 100
      ∧ (s.map 4).output.claimed = some { offset := 100, length := 36 } ∧ 135 < 100 + 36
      ∧ (s.map 4).input.claimed = some { offset := 60, length := 20 } ∧ 79 < 60 + 20
      ∧ (∀ k, k < (4 : SlotIx) → (s.map k).within 135 79 ∧ (s.ctx k).suits 125 200)
      ∧ ¬ ((bench (slotWith (slotIn .running none) (fun c => { c with rateCode := 0 }) id)).ctx 4).suits 125 200 := by
  refine ⟨bench_quiet _, by decide, by decide, by decide, by decide, by decide, by unfold CycleInRange; decide, by decide,
    by unfold CycleInRange; decide, by decide, by unfold CycleInRange; decide, by decide, by decide, by decide, by decide,
    by decide, fun k hk => ?_, ?_⟩
  · have e : k ≠ 4 := fun h => by subst h; exact absurd hk (by decide)
    refine ⟨?_, ?_⟩
    · simp only [State.map, bench_other _ e]; exact ⟨fun w h => (by cases h), fun w h => (by cases h)⟩
    · simp only [State.ctx, bench_other _ e]; intro h; rcases h with h | h <;> cases h
  · intro h
    exact absurd (h (.inl (by decide))) (by decide)

/-- READY slot 2 beside RUNNING slot 4, with the same layout: their input windows share bytes. -/
def sharing : State := pair (slotIn .running none) SlotMap.reset

/-- No period; a period too short; images too short by a byte on either side; no window shared; slot 4's window shared. -/
theorem witness_AdmissionIsCheckedInOrder :
    (sharing.ctx 2).layout = some layoutA ∧ (sharing.ctx 2).identity = some cardA
      ∧ State.reset.trunk.period = 0 ∧ sharing.trunk.period ≠ 0
      ∧ 53 * 1000 < (14 + 200) * 100 + ((12 + 28 + 24) * 400 + 2000) + 5000
      ∧ (14 + 200) * 100 + ((12 + 28 + 24) * 400 + 2000) + 5000 ≤ 54 * 1000
      ∧ 135 < 100 + 36 ∧ 100 + 36 ≤ sharing.trunk.outLength ∧ 79 < 60 + 20 ∧ 60 + 20 ≤ sharing.trunk.inLength
      ∧ (sharing.map 4).input.claimed = some { offset := 60, length := 20 } ∧ (60 ≤ 79 ∧ 79 < 60 + 20)
      ∧ sharing.admission 2 = some (.overlap 4 true) ∧ (bench (slotIn .ready none)).admission 4 = none := by
  decide +kernel

theorem witness_SegResetResetsTheBlocks : (bench (slotIn .running none)).quiet := bench_quiet _

/-- A SEG_RESET behind the head, and two requests behind it. -/
theorem witness_SegResetDiscardsWhatWaitsBehind :
    let e : Entry := { request := received1 5 255 0 [], state := .waiting }
    let s := { crowded 4 0 with requests := { (crowded 4 0).requests with
      queue := (crowded 4 0).requests.queue.take 1 ++ e :: (crowded 4 0).requests.queue.drop 2 } }
    s.trunk.transmitter = .sendingHead ∧ s.requests.queue.length = 4 ∧ s.requests.queue[1]? = some e ∧ e.state = .waiting
      ∧ e.request.code = 5 ∧ e.request.target = 255 ∧ e.request.length = 0 ∧ e.request.payload = [] := by decide

/-- The worked case's record as EXP_LOAD carries it. -/
def payloadA : Bytes := recordA.bytes

/-- It has the length its counts imply, no field out of range, and says what the record says. -/
theorem test_record_loaded :
    payloadA.length = 27 + 8 * 2 + 6 * 3 ∧ RequestName.expLoad.acceptsLength payloadA ∧ payloadA.length ≤ 512
      ∧ (∀ k, loadOutOfRange payloadA k = false) ∧ loadRecord payloadA = recordA := by
  have h : ∀ k, k < 15 → loadOutOfRange payloadA k = false := by decide +kernel
  refine ⟨by decide +kernel, by simp only [RequestName.acceptsLength]; decide +kernel, by decide +kernel, fun k => ?_,
    by decide +kernel⟩
  by_cases e : k < 15
  · exact h k e
  · rw [show k = (k - 15) + 15 by omega]; rfl

/-- The record with an enabled code and a recover code that name neither; output offsets that bring the window of 36 bytes to the end
of the largest image and one byte past it. -/
theorem witness_RecordRequestsAreRefused :
    (bench (slotIn .ready none)).quiet ∧ ((bench (slotIn .rateTraining none)).ctx 4).state = .rateTraining
      ∧ ((bench (slotIn .admitPending none)).ctx 4).state = .admitPending
      ∧ RequestName.expLoad.acceptsLength (payloadA.set 0 2) ∧ (payloadA.set 0 2).length ≤ 512
      ∧ LoadBad (payloadA.set 0 2) 0 ∧ LoadBad (payloadA.set 60 2) 14 ∧ (∀ m, m < 14 → ¬ LoadBad (payloadA.set 60 2) m)
      ∧ ¬ LoadBad ((payloadA.set 50 5).set 51 124) 7 ∧ LoadBad ((payloadA.set 50 5).set 51 125) 7
      ∧ ∀ k, ¬ LoadBad payloadA k := by
  refine ⟨bench_quiet _, (ctx_in _ _).1, (ctx_in _ _).1, by simp only [RequestName.acceptsLength]; decide +kernel,
    by decide +kernel, by simp only [LoadBad]; decide +kernel, by simp only [LoadBad]; decide +kernel, fun m hm => ?_,
    by simp only [LoadBad]; decide +kernel, by simp only [LoadBad]; decide +kernel, fun k => ?_⟩
  · interval_cases m <;> (simp only [LoadBad]; decide +kernel)
  · by_cases e : k < 15
    · interval_cases k <;> (simp only [LoadBad]; decide +kernel)
    · rw [show k = (k - 15) + 15 by omega]; simp [LoadBad]

theorem witness_ExpLoadStoresTheRecord :
    (bench (slotIn .empty none)).quiet ∧ RequestName.expLoad.acceptsLength payloadA ∧ payloadA.length ≤ 512
      ∧ (∀ k, loadOutOfRange payloadA k = false) ∧ (loadRecord payloadA).enabled = true
      ∧ (∀ st r, ((bench (slotIn st r)).ctx 4).state = st)
      ∧ ((bench (slotIn .running none)).ctx 4).layout = some layoutA := by
  obtain ⟨-, h1, h2, h3, h4⟩ := test_record_loaded
  exact ⟨bench_quiet _, h1, h2, h3, by rw [h4]; rfl, fun st r => (ctx_in st r).1, by decide⟩

theorem witness_DisabledRecordWithdraws :
    Ready (bench (slotIn .parked (some .mismatch))) ∧ ((bench (slotIn .parked (some .mismatch))).ctx 4).state = .parked
      ∧ RequestName.expLoad.acceptsLength (payloadA.set 0 0) ∧ (payloadA.set 0 0).length ≤ 512
      ∧ (∀ k, loadOutOfRange (payloadA.set 0 0) k = false) ∧ (loadRecord (payloadA.set 0 0)).enabled = false := by
  have h : ∀ k, k < 15 → loadOutOfRange (payloadA.set 0 0) k = false := by decide +kernel
  refine ⟨ready_in _ _, (ctx_in _ _).1, by simp only [RequestName.acceptsLength]; decide +kernel, by decide +kernel,
    fun k => ?_, by decide +kernel⟩
  by_cases e : k < 15
  · exact h k e
  · rw [show k = (k - 15) + 15 by omega]; rfl

theorem witness_ExpClearRemovesTheRecord :
    (bench (slotIn .settling none)).quiet ∧ ((bench (slotIn .settling none)).ctx 4).state = .settling
      ∧ (bench (slotIn .settling none)).expected 4 ≠ none ∧ (bench (slotIn .settling none)).expected 3 = none
      ∧ ((bench (slotIn .draining (some .command))).ctx 4).state = .draining
      ∧ (bench (slotIn .draining (some .command))).expected 4 ≠ none := by
  refine ⟨bench_quiet _, (ctx_in _ _).1, by decide, by decide, (ctx_in _ _).1, by decide⟩

theorem witness_ParkedCardIsMatchedAgain :
    let s := bench (slotIn .parked (some .mismatch))
    s.quiet ∧ (s.ctx 4).state = .parked ∧ (s.ctx 4).identity = some cardA ∧ s.expected 4 ≠ none
      ∧ RequestName.expLoad.acceptsLength payloadA ∧ (loadRecord payloadA).enabled = true := by
  obtain ⟨-, h1, -, -, h4⟩ := test_record_loaded
  exact ⟨bench_quiet _, (ctx_in _ _).1, by decide, by decide, h1, by rw [h4]; rfl⟩

/-- A store in which sets 0 to 15 hold all 256 blocks, set 0 OPEN and the others CLOSED, and set 16 is OPEN and empty; set 1 is
pinned. -/
def fullStore : Store :=
  { sets := Vector.ofFn fun n : SetIx =>
      if n.val < 16 then
        { state := if n = 0 then .opened else .closed, format := 33, length := 4096, sum16 := 0
          blocks := (List.range 16).map fun k => 16 * n.val + k, writePointer := if n = 0 then some 4096 else none
          pins := if n = 1 then 1 else 0 }
      else if n = 16 then { SetRecord.reset with state := .opened, writePointer := some 0 }
      else SetRecord.reset
    pool := [], memory := [] }

theorem fullStore_ok : StoreOk { State.reset with store := fullStore } :=
  ⟨by decide +kernel, by decide, by decide +kernel, by decide +kernel, by decide +kernel, by decide +kernel, rfl⟩

theorem reset_storeOk : StoreOk State.reset :=
  ⟨by decide +kernel, by decide +kernel, by decide +kernel, by decide +kernel, by decide +kernel, by decide +kernel, rfl⟩

/-- A pinned CLOSED set, a CLOSED set without pins, a FREE set. -/
theorem witness_PsetOpenAndDropFreeTheBlocks :
    let s : State := { State.reset with store := fullStore }
    s.quiet ∧ StoreOk s ∧ ((s.store.set 1).state = .closed ∧ 0 < (s.store.set 1).pins)
      ∧ ((s.store.set 2).state = .closed ∧ (s.store.set 2).pins = 0) ∧ (s.store.set 63).state = .free :=
  ⟨⟨rfl, fun _ => rfl⟩, fullStore_ok, by decide +kernel, by decide +kernel, by decide +kernel⟩

/-- A CLOSED set; an OPEN set that is full; an OPEN set with no block left; and an OPEN set with room. -/
theorem witness_PsetWriteAppends :
    let s : State := { State.reset with store := fullStore }
    let t : State := { State.reset with store := State.reset.store.openSet 5 33 }
    s.quiet ∧ StoreOk s ∧ ([1] : Bytes).length = 1 ∧ (zeros 512).length = 512 ∧ (s.store.set 2).state ≠ .opened
      ∧ ((s.store.set 0).state = .opened ∧ 4096 < (s.store.set 0).length + 1)
      ∧ ((s.store.set 16).state = .opened ∧ s.store.pool.length < (1 + 255) / 256 - (s.store.set 16).blocks.length)
      ∧ StoreOk t ∧ (t.store.set 5).state = .opened ∧ (512 + 255) / 256 ≤ t.store.pool.length := by
  refine ⟨⟨rfl, fun _ => rfl⟩, fullStore_ok, rfl, by decide +kernel, by decide +kernel, by decide +kernel, by decide +kernel, ?_,
    by decide +kernel, by decide +kernel⟩
  exact ⟨by decide +kernel, by decide +kernel, by decide +kernel, by decide +kernel, by decide +kernel, by decide +kernel, rfl⟩

/-- Set 12 OPEN with a slot PARKED for it, whose record is enabled or DISABLED, and set 3 FREE. -/
theorem witness_PsetCloseFixesTheSet :
    let s : State := { bench (slotIn .parked (some .setUnavailable)) with store := State.reset.store.openSet 12 33 }
    s.quiet ∧ PowerOk s ∧ MapOk s ∧ (s.store.set 12).state = .opened ∧ (s.store.set 3).state ≠ .opened
      ∧ (s.ctx 4).state = .parked ∧ (s.ctx 4).reason = some .setUnavailable ∧ s.expected 4 = some recordA
      ∧ recordA.set = some 12 ∧ recordA.enabled = true ∧ (s.ctx 4).identity = some cardA
      ∧ (let off := { recordA with enabled := false }
         Ready (bench { slotIn .parked (some .setUnavailable) with expected := some off }) ∧ off.set = some 12 ∧ off.enabled = false) := by
  obtain ⟨h1, h2, h3⟩ := ready_in .parked (some .setUnavailable)
  exact ⟨h1, ⟨h2.1, h2.2, h2.3, h2.4, h2.5, h2.6, h2.7, h2.8, h2.9⟩, ⟨h3.1, h3.2, h3.3, h3.4, h3.5, h3.6, h3.7, h3.8⟩,
    by decide +kernel, by decide +kernel, by decide, by decide, by decide, rfl, rfl, by decide,
    ready_of _ (by decide) (by decide), rfl, rfl⟩

/-- Hold point 1 and away from it; READY with windows retiring, with a check that passes, and with one that fails. -/
theorem witness_HoldAndRelease :
    let held := fun c : Context => { c with hold := true }
    let rate := bench (slotIn .rateTraining none)
    let busy := bench (slotWith (slotIn .rateTraining none) held fun l => { l with link := .training })
    let ready := bench (slotWith (slotIn .ready none) held id)
    let retiring := bench (waitingWith retiringA)
    rate.quiet ∧ busy.quiet ∧ ready.quiet ∧ retiring.quiet
      ∧ ((rate.ctx 4).state = .rateTraining ∧ (rate.link 4).link = .up ∧ (rate.link 4).pipe = .idle ∧ (rate.link 4).next = none)
      ∧ ((busy.ctx 4).state = .rateTraining ∧ (busy.link 4).link ≠ .up)
      ∧ ((ready.ctx 4).state = .ready ∧ ready.admission 4 = none ∧ (ready.map 4).output.isRetiring = false)
      ∧ ((retiring.ctx 4).state = .ready ∧ (retiring.map 4).output.isRetiring = true)
      ∧ (sharing.ctx 2).state = .ready ∧ sharing.admission 2 = some (.overlap 4 true) ∧ sharing.quiet := by
  refine ⟨bench_quiet _, bench_quiet _, bench_quiet _, bench_quiet _, by decide, by decide, by decide +kernel, by decide, by decide,
    by decide +kernel, rfl, fun _ => rfl⟩

theorem witness_RestartSettlesTheSlot :
    (∀ st r, Ready (bench (slotIn st r))) ∧ (∀ st r, ((bench (slotIn st r)).ctx 4).state = st)
      ∧ (State.reset.ctx 0).state = .empty
      ∧ ∀ st r, BesideReady (slotIn st r) SlotMap.reset ∧ BesideReady (slotIn st r) retiringA :=
  ⟨ready_in, fun st r => (ctx_in st r).1, rfl, fun st r => besideReady _ (slotIn_powered st r) (slotIn_mapped st r)⟩

theorem witness_WithdrawEndsTheSlot :
    (∀ st r, Ready (bench (slotIn st r))) ∧ (∀ st r, ((bench (slotIn st r)).ctx 4).state = st)
      ∧ ((bench (slotIn .running none)).map 4).output = .live layoutA.outWindow
      ∧ ((bench (slotIn .running none)).map 4).input = .live layoutA.inWindow
      ∧ ∀ st r, BesideReady (slotIn st r) SlotMap.reset ∧ BesideReady (slotIn st r) retiringA :=
  ⟨ready_in, fun st r => (ctx_in st r).1, by decide, by decide,
    fun st r => besideReady _ (slotIn_powered st r) (slotIn_mapped st r)⟩

/-- A frame with the configured image, in each mode; the largest cycle number. -/
theorem witness_MarkAtTheTrunk :
    (4294967295 : Nat) < 4294967296 ∧ (zeros 200).length ≤ 1440 ∧ (zeros 200).length = (bench (slotIn .running none)).trunk.outLength
      ∧ (bench (slotIn .running none)).trunk.mode ≠ .synchronized ∧ (bench (slotIn .running none)).events.events.length < 32 := by
  decide +kernel

theorem witness_MarkMakesArmedWindowsLive :
    let s := bench (slotIn .admitPending none)
    (zeros 200).length = s.trunk.outLength ∧ PowerOk s ∧ MapOk s ∧ (s.ctx 4).state = .admitPending
      ∧ (s.map 4).output = .armed layoutA.outWindow ∧ (s.map 4).input = .armed layoutA.inWindow ∧ (s.link 4).link = .up
      ∧ (s.link 4).lost = false :=
  ⟨by decide +kernel, (ready_in _ _).2.1, (ready_in _ _).2.2, by decide, by decide, by decide, by decide, by decide⟩

/-- A RUNNING slot with an exchange in flight and `n` misses. -/
def exchanging (n : Nat) : Slot :=
  slotWith (slotIn .running none) (fun c => { c with missCount := n }) fun l => { l with exchange := some .valid }

/-- One miss and two misses before; a mark, a bad frame with P not 0, and a local tick. -/
theorem witness_ExchangeStartsConcludeTheLast :
    Ready (bench (exchanging 1)) ∧ Ready (bench (exchanging 2))
      ∧ (let s := bench (exchanging 2)
         (s.ctx 4).state = .running ∧ (s.link 4).exchange ≠ none ∧ (s.link 4).link = .up ∧ (s.link 4).lost = false
          ∧ (s.map 4).output = .live layoutA.outWindow ∧ (s.map 4).input = .live layoutA.inWindow ∧ (s.ctx 4).missCount = 2
          ∧ s.trunk.period ≠ 0 ∧ s.trunk.tickTimer ≠ none ∧ (zeros 200).length = s.trunk.outLength
          ∧ IsBadCycleFrame (([1, 0, 0, 0] : Bytes).take 1454) s.trunk.outLength)
      ∧ ((bench (exchanging 1)).ctx 4).missCount < 2 := by
  refine ⟨ready_of _ (by decide) (by decide), ready_of _ (by decide) (by decide), ?_, by decide⟩
  exact ⟨by decide, by decide, by decide, by decide, by decide, by decide, by decide, by decide, by decide, by decide +kernel,
    by unfold IsBadCycleFrame; decide +kernel⟩

/-- A CRC that fails, an image length other than L_out, and a length other than 14 plus the image; slots inside and outside each
clause; a DRAINING slot whose exchange is in flight, with one miss and two before, served and not. -/
theorem witness_BadFrameIsRejected :
    IsBadCycleFrame ([1, 0, 0, 0] : Bytes) 0 ∧ IsBadCycleFrame (cycleFrameBytes 0 5 [9]) 0
      ∧ IsBadCycleFrame (withCrc32 ([1, 0] ++ enc32 5 ++ enc16 0 ++ [0, 0, 0])) 0
      ∧ State.reset.trunk.period = 0 ∧ ((State.reset.link 3).exchange = none)
      ∧ (let s := bench (slotIn .running none)
         s.trunk.period ≠ 0 ∧ (s.ctx 4).state ∈ [.running, .draining] ∧ (s.slotPower 4).switchOn = true ∧ (s.link 4).link = .up
          ∧ (s.link 4).lost = false ∧ (s.link 4).exchange = none)
      ∧ (∀ n state, let s := bench (slotWith (slotIn .draining (some .command)) (fun c => { c with missCount := n })
           fun l => { l with exchange := some .valid, link := state })
         IsBadCycleFrame (([1, 0, 0, 0] : Bytes).take 1454) s.trunk.outLength ∧ s.trunk.period ≠ 0 ∧ (s.ctx 4).state = .draining
          ∧ (s.link 4).exchange ≠ none ∧ (s.ctx 4).missCount = n ∧ (s.link 4).link = state ∧ (s.slotPower 4).switchOn = true
          ∧ (s.link 4).lost = false) := by
  refine ⟨by unfold IsBadCycleFrame; decide +kernel, by unfold IsBadCycleFrame; decide +kernel,
    by unfold IsBadCycleFrame; decide +kernel, rfl, by decide, by decide, fun n state => ⟨?_, nofun, rfl, nofun, rfl, rfl, rfl, rfl⟩⟩
  show IsBadCycleFrame _ 200
  unfold IsBadCycleFrame
  decide +kernel

theorem witness_TrunkTimersExpire :
    State.reset.trunk.lossTimer = none ∧ State.reset.trunk.tickTimer = none
      ∧ ({ State.reset.trunk with lossTimer := some 1500000 } : Trunk).lossTimer ≠ none
      ∧ (let s := bench (slotIn .running none)
         s.trunk.tickTimer ≠ none ∧ PowerOk s ∧ MapOk s ∧ (s.ctx 4).state = .running ∧ (s.link 4).link = .up
          ∧ (s.link 4).lost = false ∧ (s.link 4).exchange = none)
      ∧ Ready (bench (slotIn .admitPending none)) ∧ ((bench (slotIn .admitPending none)).ctx 4).state = .admitPending :=
  ⟨rfl, rfl, by decide, ⟨by decide, (ready_in _ _).2.1, (ready_in _ _).2.2, by decide, by decide, by decide, by decide⟩,
    ready_in _ _, (ctx_in _ _).1⟩

/-- Windows that retire with their slot DRAINING, in another state and in READY, beside READY slots whose windows do and do not; no
window that retires. Each cause: a line that is low, and one that is high with the debouncer ABSENT; a link that serves and one that
is lost by the third miss; the recover flag set with attempts below 3 and at 3, and no record. -/
theorem witness_DrainsCompleteAtMarksAndTicks :
    (∀ r, Ready (bench (slotIn .draining r)) ∧ ((bench (slotIn .draining r)).ctx 4).state = .draining
        ∧ ((bench (slotIn .draining r)).ctx 4).reason = r)
      ∧ (let x := slotIn .draining (some .presenceLost)
         let s := bench { x with power := SlotPower.reset false, ctx := { x.ctx with heldDraw := 0 } }
         Ready s ∧ (s.slotPower 4).line = false)
      ∧ (let s := bench (slotWith (slotIn .draining (some .command)) (fun c => { c with missCount := 2 })
           fun l => { l with exchange := some .hold })
         Ready s ∧ (s.link 4).exchange ≠ none ∧ 2 ≤ (s.ctx 4).missCount)
      ∧ (let s := bench (slotIn .draining (some .command))
         (s.slotPower 4).switchOn = true ∧ (s.link 4).link = .up ∧ (s.link 4).exchange = none)
      ∧ (let s := bench (slotWith (slotIn .draining (some .linkLost)) (fun c => { c with attempts := 3 }) id)
         Ready s ∧ (s.ctx 4).attempts = 3 ∧ s.expected 4 = some recordA ∧ recordA.recover = true)
      ∧ (let s := bench { slotIn .draining (some .linkLost) with expected := none }
         Ready s ∧ s.expected 4 = none)
      ∧ (bench (slotIn .draining none)).trunk.tickTimer ≠ none
      ∧ (∀ r, BesideReady (slotIn .draining r) SlotMap.reset ∧ BesideReady (slotIn .draining r) retiringA)
      ∧ (let x : Slot := { slotIn .runInrush none with map := retiringA }
         Ready (bench x) ∧ ((bench x).map 4).input.isRetiring = true ∧ ((bench x).ctx 4).state = .runInrush
          ∧ (bench x).power.queue = [] ∧ BesideReady x SlotMap.reset)
      ∧ (let s := pair (slotIn .running none) SlotMap.reset
         Ready s ∧ ∀ k, (s.map k).input.isRetiring = false)
      ∧ (let x := slotIn .draining (some .presenceLost)
         let s := bench { x with power := { SlotPower.reset true with debouncer := .absent }, ctx := { x.ctx with heldDraw := 0 } }
         Ready s ∧ (s.ctx 4).reason = some .presenceLost ∧ (s.slotPower 4).line = true ∧ (s.slotPower 4).debouncer = .absent) := by
  refine ⟨fun r => ⟨ready_in _ _, ctx_in _ _⟩, ⟨ready_of _ (by decide) (by decide), by decide⟩,
    ⟨ready_of _ (by decide) (by decide), by decide, by decide⟩, ⟨by decide, by decide, by decide⟩,
    ⟨ready_of _ (by decide) (by decide), by decide, by decide, rfl⟩, ⟨ready_of _ (by decide) (by decide), by decide⟩, by decide,
    fun r => besideReady _ (slotIn_powered _ _) (slotIn_mapped _ _),
    ⟨ready_of _ (by decide) (by decide), rfl, rfl, rfl, (besideReady _ (by decide) (by decide)).1⟩,
    ⟨pair_ready _ _ (by decide) (by decide) (.inl rfl), by decide⟩,
    ⟨ready_of _ (by decide) (by decide), rfl, rfl, rfl⟩⟩

/-- A waiting return frame; a head response built before, with and after the oldest BUSY answer; nothing at all; a return frame sent. -/
theorem witness_TransmitterSendsReturnFramesFirst :
    let frame := State.reset.returnFrame false
    let r : Response := { tag := 7, code := 1, target := 255, answer := done .ident, built := 3 }
    let e : Entry := { request := received1 1 255 0 [], state := .answered r }
    (Transmitter.gap 1200 = .gap 1200) ∧ ({ State.reset.trunk with waiting := some frame } : Trunk).waiting = some frame
      ∧ State.reset.trunk.waiting = none ∧ [e] = e :: [] ∧ e.state = .answered r ∧ r.built ≤ { r with built := 3 }.built
      ∧ { r with built := 2 }.built < r.built ∧ State.reset.requests.queue = [] ∧ State.reset.requests.holding = []
      ∧ Transmitter.sendingReturn frame = .sendingReturn frame := by
  refine ⟨rfl, rfl, rfl, rfl, rfl, Nat.le_refl 3, by decide, rfl, rfl, rfl⟩

/-- The head alone; a DISCARDED and a WAITING entry behind it, the latter another request, a SEG_RESET of a wrong target and one of a
wrong length; a BUSY answer being sent. -/
theorem witness_ResponseSentExecutesTheNext :
    (crowded 1 0).trunk.transmitter = .sendingHead ∧ (crowded 1 0).requests.queue.length = 1
      ∧ (crowded 3 0).requests.queue.length = 3
      ∧ ((crowded 3 0).requests.queue[1]?).map Entry.state = some .waiting
      ∧ (let carriedOut := fun r : Request => r.code = 5 ∧ r.target = 255 ∧ r.length = 0 ∧ r.payload = []
         ¬ carriedOut (received1 1 255 0 []) ∧ ¬ carriedOut (received1 5 3 0 []) ∧ ¬ carriedOut (received1 5 255 1 [0]))
      ∧ (EntryState.discarded { tag := 7, code := 1, target := 255, answer := refuse .discarded, built := 1 }) ≠ .waiting := by
  decide

/-- The slot with its presence line and debouncer as given. -/
def presence (st : CtxState) (line : Bool) (d : DebounceState) : Slot :=
  { slotIn st none with power := { SlotPower.reset line with debouncer := d } }

/-- Each level in each debouncer state, with the context EMPTY and not. -/
theorem witness_PresenceLineChanges :
    (∀ st line d, ((bench (presence st line d)).slotPower 4).line = line
        ∧ ((bench (presence st line d)).slotPower 4).debouncer = d ∧ ((bench (presence st line d)).ctx 4).state = st) :=
  fun _ _ _ => ⟨rfl, rfl, rfl⟩

/-- A slot whose present timer runs: in SETTLING with a DISABLED record, an enabled one and none, and in another state. -/
theorem witness_PresentCardJoinsTheQueue :
    let x := presence .settling true (.rising 10000000)
    let timed : SlotPower := { x.power with presentTimer := some 10000000 }
    let s := fun r => bench { x with power := timed, expected := r }
    (∀ r, ((s r).slotPower 4).presentTimer ≠ none ∧ ((s r).ctx 4).state = .settling ∧ (s r).expected 4 = r)
      ∧ recordA.enabled = true ∧ { recordA with enabled := false }.enabled = false
      ∧ ((bench { slotIn .running none with power := timed }).ctx 4).state ≠ .settling :=
  ⟨fun _ => ⟨nofun, rfl, rfl⟩, rfl, rfl, by decide⟩

/-- The slot of the bench with its line dropped and its absent timer running. -/
def leaving (x : Slot) : Slot := { x with power := { x.power with line := false, absentTimer := some 2000000 } }

theorem leaving_ready (st : CtxState) (r : Option Reason) : Ready (bench (leaving (slotIn st r))) :=
  ready_of _ (slotIn_powered st r) (slotIn_mapped st r)

/-- Every state with its power as the state has it, and DRAINING with its power gone. -/
theorem witness_AbsentCardEmptiesTheSlot :
    (∀ st r, let s := bench (leaving (slotIn st r))
      Ready s ∧ (s.slotPower 4).absentTimer ≠ none ∧ (s.slotPower 4).line = false ∧ (s.ctx 4).state = st)
    ∧ ((bench (leaving (slotIn .running none))).map 4).output = .live layoutA.outWindow
    ∧ (let x := slotIn .draining (some .command)
       let s := bench (leaving { x with power := SlotPower.reset false, ctx := { x.ctx with heldDraw := 0 } })
       Ready s ∧ (s.slotPower 4).absentTimer ≠ none ∧ (s.slotPower 4).switchOn = false)
    ∧ ∀ st r, BesideReady (leaving (slotIn st r)) SlotMap.reset ∧ BesideReady (leaving (slotIn st r)) retiringA :=
  ⟨fun st r => ⟨leaving_ready st r, nofun, rfl, rfl⟩, by decide, ⟨ready_of _ (by decide) (by decide), by decide, by decide⟩,
    fun st r => besideReady _ (slotIn_powered st r) (slotIn_mapped st r)⟩

/-- STANDBY_INRUSH with the minimum running, run out, and running with power-good seen; the switch OFF. -/
theorem witness_InrushCompletesWithPowerGood :
    let x : Slot := { slotIn .standbyInrush none with link := LinkEngine.reset true false }
    let running : Slot := { x with power := { x.power with minimumTimer := some 20000000 } }
    let seen : Slot := { x with power := { x.power with minimumTimer := some 20000000, goodSeen := true } }
    let turning : Slot := { x with link := { x.link with turnaround := some 1000 } }
    Ready (bench x) ∧ Ready (bench seen) ∧ x.ctx.state = .standbyInrush
      ∧ x.link = { x.link.gone with turnaround := x.link.turnaround }
      ∧ turning.link = { turning.link.gone with turnaround := turning.link.turnaround } ∧ x.power.switchOn = true
      ∧ x.power.deadlineTimer ≠ none ∧ x.power.minimumTimer = none
      ∧ running.power.minimumTimer ≠ none ∧ running.power.goodSeen = false ∧ seen.power.goodSeen = true
      ∧ (slotIn .empty none).power.switchOn = false := by
  refine ⟨ready_of _ (by decide) (by decide), ready_of _ (by decide) (by decide), rfl, rfl, rfl, rfl, nofun, rfl, nofun, rfl, rfl, rfl⟩

theorem witness_PowerFaultsTurnTheSwitchOff :
    (∀ st r, Ready (bench (slotIn st r)) ∧ ((bench (slotIn st r)).ctx 4).state = st)
      ∧ ((bench (slotIn .standbyInrush none)).slotPower 4).deadlineTimer ≠ none
      ∧ ((bench (slotIn .running none)).slotPower 4).deadlineTimer = none
      ∧ (∀ st, st.powered = some true → ((bench (slotIn st none)).slotPower 4).switchOn = true)
      ∧ ((bench (slotIn .draining (some .linkLost))).slotPower 4).switchOn = true
      ∧ ((bench (slotIn .faulted none)).slotPower 4).switchOn = false
      ∧ ((bench (slotIn .running none)).map 4).input = .live layoutA.inWindow
      ∧ ∀ st r, BesideReady (slotIn st r) SlotMap.reset ∧ BesideReady (slotIn st r) retiringA := by
  refine ⟨fun st r => ⟨ready_in st r, (ctx_in st r).1⟩, by decide, by decide, fun st h => ?_, by decide, by decide, by decide,
    fun st r => besideReady _ (slotIn_powered st r) (slotIn_mapped st r)⟩
  simp only [State.slotPower, bench_slot, slotIn, h, Option.getD]

/-- The bench at the end of a run phase, set 12 CLOSED with a format id and a length; without a set, held and not, and with the slot's
own windows still RETIRING; and a check that fails. -/
theorem witness_RunPhaseEndsTheInrush :
    let s := bench (slotIn .runInrush none)
    let with12 := fun (format length : Nat) =>
      s.store.setRecord 12 { SetRecord.reset with state := .closed, format := format, length := length }
    let plain : Layout := { layoutA with set := none }
    let free := fun hold => bench (slotWith (slotIn .runInrush none) (fun c => { c with layout := some plain, hold := hold }) id)
    Ready s ∧ (s.slotPower 4).runPhaseTimer ≠ none ∧ (s.map 4).input = .vacant ∧ (s.ctx 4).identity = some cardA
      ∧ (s.ctx 4).layout = some layoutA ∧ layoutA.set = some 12 ∧ cardA.param = some { format := 33, maxLength := 2048 }
      ∧ ((with12 34 0).set 12).format ≠ 33
      ∧ (((with12 33 2049).set 12).format = 33 ∧ 2048 < ((with12 33 2049).set 12).length)
      ∧ (((with12 33 2048).set 12).format = 33 ∧ ((with12 33 2048).set 12).length ≤ 2048)
      ∧ (∀ hold, Ready (free hold) ∧ ((free hold).ctx 4).layout = some plain ∧ ((free hold).ctx 4).hold = hold)
      ∧ plain.set = none ∧ (free false).admission 4 = none
      ∧ { free false with trunk := State.reset.trunk }.admission 4 = some .noCycle
      ∧ (let x : Slot := slotWith { slotIn .runInrush none with map := retiringA } (fun c => { c with layout := some plain }) id
         Ready (bench x) ∧ x.ctx.hold = false ∧ x.map.input.isRetiring = true ∧ x.power.runPhaseTimer ≠ none) := by
  refine ⟨ready_in _ _, by decide, by decide, by decide, by decide, rfl, rfl, by decide +kernel, by decide +kernel, by decide +kernel,
    fun hold => ⟨ready_of _ (by cases hold <;> decide) rfl, rfl, rfl⟩, rfl, by decide +kernel, by decide +kernel,
    ⟨ready_of _ (by decide) (by decide), rfl, rfl, nofun⟩⟩

/-- An entry of the power-up queue. -/
def waits (i : SlotIx) (increase : Nat) (p : Priority) : PowerEntry :=
  { slot := i, stage := .run, increase := increase, priority := p, passedOver := false }

/-- 02, FIRST FIT PAST A LARGE ENTRY in small: a HIGH entry that does not fit before a NORMAL one that does; a budget in which
neither fits; the allowance held. -/
theorem witness_PassGrantsTheFirstThatFits :
    let q := [waits 3 100 .normal, waits 7 900 .high]
    let p : PowerBlock := { committed := 150, budget := 250, queue := q, owner := none }
    (q.map PowerEntry.slot).Nodup ∧ p.owner = none ∧ { p with owner := some 4 }.owner ≠ none
      ∧ q.filter (fun e => decide (e.priority = .high)) ++ q.filter (fun e => decide (e.priority = .normal))
        = [waits 7 900 .high] ++ waits 3 100 .normal :: []
      ∧ ¬ p.committed + 900 ≤ p.budget ∧ p.committed + 100 ≤ p.budget
      ∧ ¬ p.committed + 100 ≤ { p with budget := 249 }.budget := by decide

/-- A link engine with the changes given, on the bench. -/
def linked (st : CtxState) (g : LinkEngine → LinkEngine) : Slot := slotWith (slotIn st none) id g

theorem linked_ready (st : CtxState) (g : LinkEngine → LinkEngine) : Ready (bench (linked st g)) :=
  ready_of _ (slotIn_powered st none) (slotIn_mapped st none)

/-- A bulk transfer with a packet in flight. -/
def flying : Bulk :=
  { total := 300, packetSize := 128, offset := 128, length := 128, seqBit := true, resends := 0, sent := true
    answerTimer := some 20000000, backoffTimer := none, waitTimer := none }

/-- A turnaround with each thing that can wait, and with the pair not quiet at its end; each message that can end, outstanding, given
up, and with another that waits behind it. -/
theorem witness_LinkSendsInTurn :
    (∀ g : LinkEngine → LinkEngine, (bench (linked .parameterizing g)).link 4 = g (slotIn .parameterizing none).link)
      ∧ (let l := (slotIn .parameterizing none).link
         let turning : NextSend → LinkEngine := fun x => { l with turnaround := some 1000, next := some x }
         l.turnaround = none ∧ l.sending = none ∧ l.next = none ∧ ({ l with turnaround := some 1000 } : LinkEngine).next = none
          ∧ (∀ x, (turning x).turnaround ≠ none ∧ (turning x).sending = none ∧ (turning x).receiving = false
            ∧ (turning x).next = some x)
          ∧ { turning .train with training := some (.base, 0) }.training = some (.base, 0)
          ∧ { turning .again with pipe := .waiting .start 9 true }.pipe = .waiting .start 9 true
          ∧ { turning .packet with bulk := some flying }.bulk = some flying
          ∧ { l with link := .training, sending := some (.train .base 0 1) }.link = .training
          ∧ { l with sending := some (.request 9 .start), pipe := .waiting .start 9 false }.pipe = .waiting .start 9 false
          ∧ flying.backoffTimer = none
          ∧ { turning .train with sending := some (.cyclicOut .valid []) }.sending ≠ none
          ∧ { turning .train with receiving := true }.receiving = true
          ∧ ({ l with sending := some (.train .base 0 1) } : LinkEngine).link ≠ .training
          ∧ { l with sending := some (.request 8 .start), pipe := .waiting .start 9 false }.pipe ≠ .waiting .start 8 false
          ∧ { flying with backoffTimer := some 1000000 }.backoffTimer ≠ none
          ∧ { l with sending := some (.packet true []), next := some .packet }.next ≠ none
          ∧ { l with sending := some (.cyclicOut .valid []), next := some .again }.sending = some (.cyclicOut .valid []))
      ∧ ((bench (slotWith (slotIn .parameterizing none) (fun c => { c with pinned := some 12 }) id)).ctx 4).pinned = some 12 := by
  refine ⟨fun g => ?_, ?_, by decide⟩
  · simp only [State.link, bench_slot]; rfl
  · exact ⟨rfl, rfl, rfl, rfl, fun _ => ⟨nofun, rfl, rfl, rfl⟩, rfl, rfl, rfl, rfl, rfl, rfl, nofun, rfl, by decide, by decide,
      nofun, nofun, rfl⟩

/-- Echoes awaited after TRAIN number 5: the third and the fourth in a row, in LINK_TRAINING and, held and not, in RATE_TRAINING; a
good echo and another message. -/
theorem witness_EchoesPassTheAttempt :
    (∀ n, let l := { LinkEngine.reset true false with
            link := .training, training := some (.base, 0), seq := 5, echoes := n, echoTimer := some 200000 }
       l.link = .training ∧ l.training = some (.base, 0) ∧ l.echoTimer ≠ none ∧ l.echoes = n ∧ l.receiving = false)
      ∧ (2 < 3 ∧ 3 ≤ 3)
      ∧ (∃ number, linkBytes 2 9 (trainBody .base 0 5) = linkBytes 2 number (trainBody .base 0 5))
      ∧ (¬ ∃ number, ([] : Bytes) = linkBytes 2 number (trainBody .base 0 5))
      ∧ (∀ hold, (slotWith (slotIn .rateTraining none) (fun c => { c with hold := hold }) id).ctx.hold = hold)
      ∧ (slotIn .linkTraining none).ctx.state = .linkTraining :=
  ⟨fun _ => ⟨rfl, rfl, nofun, rfl, rfl⟩, by decide, ⟨9, rfl⟩, nofun, fun _ => rfl, rfl⟩

/-- The second and the third failure: of a rate training above code 0, of one at code 0, and of a base training. -/
theorem witness_FailedAttempts :
    (∀ st kind target n, let s := bench (linked st fun l =>
        { l with link := .training, training := some (kind, target), failures := n, attemptTimer := some 5000000, echoTimer := some 1 })
      PowerOk s ∧ MapOk s ∧ (s.ctx 4).state = st ∧ (s.link 4).training = some (kind, target) ∧ (s.link 4).failures = n
        ∧ (s.link 4).attemptTimer ≠ none ∧ (s.link 4).echoTimer ≠ none)
      ∧ (1 < 2 ∧ 2 ≤ 2) ∧ (3 : RateCode).val = (2 : RateCode).val + 1
      ∧ (State.reset.link 4).echoTimer = none ∧ (State.reset.link 4).attemptTimer = none := by
  refine ⟨fun st kind target n => ⟨(linked_ready _ _).2.1, (linked_ready _ _).2.2, rfl, rfl, rfl, nofun, nofun⟩, by decide, by decide,
    by decide, by decide⟩

/-- A slot whose request `r`, number 9, waits for its answer. -/
def asking (st : CtxState) (r : ControlReq) : Slot :=
  slotWith (slotIn st none) (fun c =>
      { c with walk := some Walk.initial
               download := some { phase := .begin, set := 12, length := 300, format := 33, sum16 := 0, packetSize := 128 } })
    fun l => { l with pipe := .waiting r 9 false, answerTimer := some 20000000 }

theorem asking_meets (st : CtxState) (r : ControlReq) :
    let s := bench (asking st r)
    PowerOk s ∧ MapOk s ∧ (s.ctx 4).state = st ∧ (s.link 4).link = .up ∧ (s.link 4).bulk = none
      ∧ (s.link 4).pipe = .waiting r 9 false ∧ (s.link 4).answerTimer ≠ none ∧ (s.link 4).receiving = false := by
  have h := ready_of (asking st r) (slotIn_powered st none) (slotIn_mapped st none)
  exact ⟨h.2.1, h.2.2, rfl, rfl, rfl, rfl, nofun, rfl⟩

/-- Each request in its stage. A header read that goes on, one that fails, and the last body of the worked case's chain; a DISABLED
record; a record without a set and with rate cap 0, under which the card goes forward at code 0; an empty set and one of 300 bytes;
READY with the slot's windows VACANT and still RETIRING; an admission check that passes and one that fails. -/
theorem witness_ControlAnswersMoveTheBringUp :
    (∀ st r, let s := bench (asking st r)
      PowerOk s ∧ MapOk s ∧ (s.ctx 4).state = st ∧ (s.link 4).link = .up ∧ (s.link 4).bulk = none
        ∧ (s.link 4).pipe = .waiting r 9 false ∧ (s.link 4).answerTimer ≠ none ∧ (s.link 4).receiving = false)
      ∧ ((bench (asking .identifying (.readDescriptor 0 4))).ctx 4).walk = some Walk.initial
      ∧ (∃ w o k, walkStep Walk.initial [1, 10, 0, 16] = .read w o k)
      ∧ walkStep Walk.initial [2, 4, 0, 16] = .failed ⟨.chainOrder, 2⟩
      ∧ (∃ w data card, w.stage = .body [] ∧ data.length = 4 ∧ walkStep w data = .complete card)
      ∧ (bench (asking .identifying (.readDescriptor 0 4))).expected 4 = some recordA ∧ recordA.enabled = true
      ∧ matchCard only12 cardA (some { recordA with set := none, rateCap := 0 })
        = .forward { cls := .compatible, sub := none, substitute := some 1 } { layoutA with set := none } 0 3
      ∧ ((bench (asking .parameterizing (.paramBegin 300 33 0 128))).ctx 4).download.map Download.length = some 300
      ∧ ((bench (asking .parameterizing .paramEnd)).map 4).input = .vacant
      ∧ ((bench (asking .starting .start)).ctx 4).layout = some layoutA
      ∧ (bench (asking .starting .start)).admission 4 = none
      ∧ { bench (asking .starting .start) with trunk := State.reset.trunk }.admission 4 = some .noCycle
      ∧ (let x : Slot := { asking .parameterizing .paramEnd with map := retiringA }
         PowerOk (bench x) ∧ MapOk (bench x) ∧ x.ctx.hold = false ∧ x.map.input.isRetiring = true) := by
  refine ⟨asking_meets, by decide, ⟨_, _, _, rfl⟩, by decide, ?_, by decide, rfl, by decide, by decide, by decide, by decide, by decide +kernel,
    by decide +kernel, ⟨(ready_of _ (by decide) (by decide)).2.1, (ready_of _ (by decide) (by decide)).2.2, rfl, rfl⟩⟩
  refine ⟨{ Walk.initial with
    offset := 76, number := 4, stage := .body [], header := some { kind := 5, bodyLength := 4, next := 0 }
    kinds := [.ident, .supply, .link, .layout, .param]
    fields := { ident := some { vendor := 1, cardType := 1, revision := { major := 1, minor := 0 }, serial := 1 }
                supply := some (100, 200), link := some (2, 128)
                layout := some { baseOut := 1, baseIn := 1, entries := [] }, param := none } }, [0, 33, 8, 0], _, rfl, rfl, rfl⟩

/-- Each request in its stage; the rate codes 2, 1 and 0 of a refused SET_RATE, held and not. -/
theorem witness_RefusalsFaultTheSlot :
    (∀ st r, let s := bench (asking st r)
      PowerOk s ∧ MapOk s ∧ (s.ctx 4).state = st ∧ (s.link 4).link = .up ∧ (s.link 4).bulk = none
        ∧ (s.link 4).pipe = .waiting r 9 false ∧ (s.link 4).answerTimer ≠ none ∧ (s.link 4).receiving = false)
      ∧ (2 : RateCode).val = (1 : RateCode).val + 1 ∧ (1 : RateCode) ≠ 0 ∧ (1 : RateCode).val = (0 : RateCode).val + 1
      ∧ (asking .rateTraining (.setRate 1)).ctx.hold = false
      ∧ (255 : Byte).toNat * 256 + (255 : Byte).toNat = 65535 :=
  ⟨asking_meets, by decide, by decide, by decide, rfl, by decide⟩

/-- A request waiting for its first answer, one that has been repeated, and STOP in STOPPING; the pair quiet and not. -/
theorem witness_TimeoutsAndTheEndOfAStop :
    (∀ st r, let s := bench (asking st r)
      PowerOk s ∧ MapOk s ∧ (s.ctx 4).state = st ∧ (s.link 4).link = .up ∧ (s.link 4).bulk = none
        ∧ (s.link 4).pipe = .waiting r 9 false ∧ (s.link 4).answerTimer ≠ none ∧ (s.link 4).receiving = false)
      ∧ ((bench (asking .stopping .stop)).link 4).turnaround = none ∧ ((bench (asking .stopping .stop)).link 4).sending = none
      ∧ (∀ st r, let s := bench (slotWith (asking st r) id fun l => { l with pipe := .waiting r 9 true, turnaround := some 1000 })
          PowerOk s ∧ MapOk s ∧ (s.ctx 4).state = st ∧ (s.link 4).answerTimer ≠ none ∧ (s.link 4).pipe = .waiting r 9 true
            ∧ (s.link 4).turnaround ≠ none)
      ∧ { (bench (asking .stopping .stop)).link 4 with receiving := true }.receiving = true
      ∧ (State.reset.link 4).answerTimer = none := by
  refine ⟨asking_meets, by decide, by decide, fun st r => ?_, rfl, by decide⟩
  have h := ready_of (slotWith (asking st r) id fun l => { l with pipe := .waiting r 9 true, turnaround := some 1000 })
    (slotIn_powered st none) (slotIn_mapped st none)
  exact ⟨h.2.1, h.2.2, rfl, nofun, rfl, nofun⟩

/-- A packet awaited, the last one and an earlier one, resent twice and three times; a backoff and a wait that run. -/
theorem witness_BulkAnswersMoveTheDownload :
    (∀ b : Bulk, let s := bench (slotWith (slotIn .parameterizing none) (fun c => { c with pinned := some 12 })
          fun l => { l with bulk := some b })
      PowerOk s ∧ MapOk s ∧ (s.link 4).link = .up ∧ (s.link 4).bulk = some b ∧ (s.ctx 4).state = .parameterizing
        ∧ (s.ctx 4).pinned = some 12 ∧ (s.link 4).turnaround = none ∧ (s.link 4).sending = none ∧ (s.link 4).receiving = false)
      ∧ flying.sent = true ∧ flying.backoffTimer = none ∧ flying.answerTimer ≠ none
      ∧ flying.offset + flying.length ≠ flying.total ∧ { flying with total := 256 }.total = flying.offset + flying.length
      ∧ { flying with resends := 2 }.resends < 3 ∧ 3 ≤ { flying with resends := 3 }.resends
      ∧ { flying with backoffTimer := some 1000000, waitTimer := some 500000000 }.backoffTimer ≠ none
      ∧ { flying with waitTimer := some 500000000 }.waitTimer ≠ none ∧ flying.waitTimer = none
      ∧ ([] : Bytes) ≠ linkBytes 6 1 [] := by
  refine ⟨fun b => ?_, rfl, rfl, nofun, by decide, by decide, by decide, by decide, nofun, nofun, rfl, nofun⟩
  have h := ready_of (slotWith (slotIn .parameterizing none) (fun c => { c with pinned := some 12 })
    fun l => { l with bulk := some b }) (slotIn_powered .parameterizing none) (slotIn_mapped .parameterizing none)
  exact ⟨h.2.1, h.2.2, rfl, rfl, rfl, rfl, rfl, rfl, rfl⟩

/-- A good CYCLIC_IN of 24 bytes at runs of 998 and 999; and each case in which a message is discarded. -/
theorem witness_MessagesAreTakenAsAnswers :
    (∀ n, let x := slotWith (exchanging 1) (fun c => { c with goodRun := n }) id
       x.link.link = .up ∧ x.link.bulk = none ∧ x.link.pipe = .idle ∧ x.link.exchange ≠ none ∧ x.link.sending = none
        ∧ x.link.next = none ∧ x.link.receiving = false ∧ x.ctx.state = .running ∧ x.ctx.ci = 24 ∧ x.ctx.goodRun = n)
      ∧ (zeros 24).length = 24 ∧ ¬ 999 ≤ 998
      ∧ (LinkEngine.reset true false).link = .down ∧ { LinkEngine.reset true false with link := .failed }.link = .failed
      ∧ { LinkEngine.reset true false with link := .training }.echoTimer = none
      ∧ { flying with sent := false }.sent = false ∧ { flying with backoffTimer := some 1000000 }.backoffTimer ≠ none
      ∧ (asking .starting .start).link.pipe = .waiting .start 9 false ∧ ([] : Bytes) ≠ linkBytes 4 9 [0]
      ∧ (slotIn .running none).link.exchange = none ∧ (exchanging 1).link.exchange ≠ none
      ∧ { (exchanging 1).link with sending := some (.cyclicOut .valid []) }.sending ≠ none
      ∧ { (exchanging 1).link with next := some (.cyclicOut .valid []) }.next ≠ none
      ∧ (slotIn .stopping none).ctx.state ∉ [.running, .draining] ∧ { (exchanging 1).link with receiving := true }.receiving = true
      ∧ ∀ number (inputs : Bytes), ([] : Bytes) ≠ linkBytes 10 number inputs := by
  refine ⟨fun n => ⟨rfl, rfl, rfl, nofun, rfl, rfl, rfl, rfl, rfl, rfl⟩, by decide, by decide, rfl, rfl, rfl, rfl, nofun, rfl, nofun, rfl,
    nofun, nofun, nofun, by decide, rfl, nofun⟩

/-- The line at each level, under the watch and not; an absence counted in every state. -/
theorem witness_LinkAliveAndLinkDrop :
    (∀ st, let s := bench (linked st fun l => { l with alive := false, absenceTimer := some 100000 })
      PowerOk s ∧ MapOk s ∧ (s.ctx 4).state = st ∧ (s.link 4).alive = false ∧ (s.link 4).absenceTimer ≠ none)
      ∧ ((bench (slotIn .running none)).link 4).alive = true ∧ ((bench (slotIn .running none)).link 4).absenceTimer = none
      ∧ ∀ st, let x := linked st fun l => { l with alive := false, absenceTimer := some 100000 }
          BesideReady x SlotMap.reset ∧ BesideReady x retiringA :=
  ⟨fun st => ⟨(linked_ready st _).2.1, (linked_ready st _).2.2, rfl, rfl, nofun⟩, by decide, by decide,
    fun st => besideReady _ (slotIn_powered st none) (slotIn_mapped st none)⟩

/-- Headers at the bounds of each check: kind 1 and 2 in block 1; body length 252 and 253, ending at 1,024 and 1,025; a kind seen;
next offset 1,020, 1,022 and 1,024; block 15 and 16; LINK with 2 and 3 bytes; the end of a chain without SUPPLY, LINK, LAYOUT. A body
one byte short of its length and whole; a bulk payload of 15 and 16; LAYOUT bodies at the bounds of its checks. -/
theorem witness_WalkChecksEachHeader :
    Walk.initial.stage = .header ∧ (Walk.initial.number = 1 ∧ (2 : Byte).toNat ≠ 1)
      ∧ (252 < (253 : Byte).toNat ∧ ¬ 252 < (252 : Byte).toNat ∧ 1024 < 768 + 4 + (253 : Byte).toNat ∧ ¬ 1024 < 768 + 4 + (252 : Byte).toNat)
      ∧ (blockKind 3 = some .link ∧ BlockKind.link ∈ [BlockKind.ident, .link])
      ∧ (1022 % 4 ≠ 0 ∧ 1024 ≤ 1024 ∧ 1020 % 4 = 0 ∧ ¬ 1024 ≤ 1020)
      ∧ ({ Walk.initial with number := 16 }.number = 16 ∧ { Walk.initial with number := 15 }.number ≠ 16)
      ∧ ((2 : Byte).toNat < [0, 10, 4, 3, 5, 4].getD 3 0 ∧ ¬ (3 : Byte).toNat < [0, 10, 4, 3, 5, 4].getD 3 0)
      ∧ blockKind 64 = none ∧ blockKind 0 = none ∧ Walk.initial.fields.supply = none
      ∧ { Walk.initial with stage := .body [0] }.stage = .body [0]
      ∧ (([0] : Bytes) ++ zeros 250).length < 252 ∧ 252 ≤ (([0] : Bytes) ++ zeros 251).length
      ∧ (numAt16 [2, 0, 15] 1 < 16 ∧ 16 ≤ numAt16 [2, 0, 16] 1)
      ∧ (8 < byteAt [0, 0, 0, 0, 9] 4 ∧ byteAt [0, 0, 0, 0, 8] 4 ≤ 8 ∧ ([0, 0, 0, 0, 1, 7, 0, 0, 64] : Bytes).length < 5 + 5 * 1)
      ∧ layoutFault 0 ([1, 0, 0, 0, 1] ++ [7, 0, 0, 0, 64]) = none
      ∧ layoutFault 0 ([1, 0, 0, 0, 1] ++ [8, 0, 0, 0, 65]) = some ⟨.layoutBad, 2⟩
      ∧ layoutFault 0 ([1, 0, 0, 0, 1] ++ [7, 0, 0, 0, 65]) = some ⟨.layoutBad, 4⟩
      ∧ layoutFault 0 ([1, 0, 1, 0, 1] ++ [7, 0, 0, 1, 1]) = some ⟨.layoutBad, 5⟩
      ∧ layoutFault 0 ([1, 0, 1, 0, 1] ++ [7, 0, 0, 0, 1]) = some ⟨.layoutBad, 6⟩ := by decide +kernel

/-- A fit of the primary identity, of the second of two substitutes, and none; each judgement against the worked case. -/
theorem witness_MatchingJudgesTheCandidate :
    cardA.vendor = 412 ∧ ¬ cardA.fits recordA.primary ∧ recordA.substitutes[1]?.any cardA.fits = true
      ∧ recordA.substitutes[0]?.any cardA.fits = false
      ∧ { cardA with cardType := 7000, revision := { major := 1, minor := 9 } }.fits recordA.primary = true
      ∧ recordA.substitutes.any { cardA with vendor := 1 }.fits = false
      ∧ (cardA.baseOut ≤ recordA.baseOut ∧ cardA.baseIn ≤ recordA.baseIn) ∧ ¬ 9 ≤ recordA.baseIn
      ∧ recordA.subs = [] ++ { position := 1, type := 902, outBytes := 16, inBytes := 0, required := true } :: recordA.subs.tail
      ∧ recordA.drawCap < 501 ∧ cardA.runDraw ≤ recordA.drawCap ∧ recordA.set = some 12 := by decide

/-- The worked case's card and record. -/
theorem witness_TablesMoveEachSubModule :
    let entries : List LayoutEntry := [{ position := 1, type := 902, outBytes := 16, inBytes := 0 },
      { position := 2, type := 903, outBytes := 4, inBytes := 4 }, { position := 5, type := 901, outBytes := 0, inBytes := 16 }]
    cardA.subs = placeSubs cardA.baseOut cardA.baseIn entries ∧ (entries.map LayoutEntry.position).Pairwise (· < ·)
      ∧ (recordA.subs.map ExpSub.position).Pairwise (· < ·) ∧ cardA.baseOut ≤ recordA.baseOut ∧ cardA.baseIn ≤ recordA.baseIn
      ∧ ∀ e ∈ recordA.subs, ∀ m ∈ cardA.subs, m.position = e.position → m.outBytes = e.outBytes ∧ m.inBytes = e.inBytes := by
  decide

theorem witness_RecordsReadBackAsSent : recordA.InRange := by
  refine ⟨by unfold CardSpec.InRange; decide, ⟨by decide, ?_⟩, by decide, by decide, by decide, by decide, by decide, by decide, by decide⟩
  unfold CardSpec.InRange
  decide

/-- Reset meets the queues' invariant, and the bench with a RUNNING slot the other three; both have a next state. -/
theorem witness_EveryStepKeepsTheQueues : RequestsOk State.reset ∧ step State.reset = .next State.reset := by
  refine ⟨⟨by decide, by decide, by decide, by decide, fun _ h => absurd h List.not_mem_nil, by decide, by decide, by decide, by decide⟩, rfl⟩

theorem witness_EveryStepKeepsTheStore :
    let s : State := { State.reset with store := fullStore, pending := [.psetDrop 7 2 0 []] }
    StoreOk s ∧ ∃ t, step s = .next t :=
  ⟨⟨fullStore_ok.1, fullStore_ok.2, fullStore_ok.3, fullStore_ok.4, fullStore_ok.5, fullStore_ok.6, rfl⟩, _, rfl⟩

theorem witness_EveryStepKeepsThePowerAccount :
    let s : State := { bench (slotIn .running none) with pending := [.trip 4] }
    PowerOk s ∧ ∃ t, step s = .next t := by
  obtain ⟨-, h, -⟩ := ready_in .running none
  exact ⟨⟨h.1, h.2, h.3, h.4, h.5, h.6, h.7, h.8, h.9⟩, _, rfl⟩

theorem witness_EveryStepKeepsTheMap :
    let s : State := { bench (slotIn .running none) with pending := [.trip 4] }
    PowerOk s ∧ MapOk s ∧ ∃ t, step s = .next t := by
  obtain ⟨-, h, m⟩ := ready_in .running none
  exact ⟨⟨h.1, h.2, h.3, h.4, h.5, h.6, h.7, h.8, h.9⟩, ⟨m.1, m.2, m.3, m.4, m.5, m.6, m.7, m.8⟩, _, rfl⟩

end Sys2Proof.Tests
end

section
/-! SUPPORT. Requests at a quiet queue: a request that arrives there is executed and answered at once (R177, R180, R182). -/

namespace Sys2Proof.Machine

/-- Each row of the table of requests is the arrival of the request it carries (R176). -/
theorem exec_command (name : RequestName) (tag target : Byte) (length : BitVec 16) (payload : Bytes) (s : State) :
    exec (name.command tag target length payload) s = .next (arrive (requestWith name.code tag target length payload) s) := by
  cases name <;> rfl

theorem requestName_code (name : RequestName) : requestName name.code = some name := by
  cases name <;> rfl

theorem setTarget_setByte (n : SetIx) : setTarget (setByte n) = some n := by
  have hn : (setByte n).toNat = n.val := by
    simp only [setByte, BitVec.toNat_ofNat]
    omega
  simp [setTarget, hn]

/-- The first two checks of R178 pass for a request to a set whose payload length is accepted. -/
theorem setRequest_requestFor (name : RequestName) (tag : Byte) (n : SetIx) (payload : Bytes) {ok : Nat → Bool}
    (act : SetIx → State → State × Answer) (s : State) (hmax : payload.length ≤ 512) (hok : ok payload.length = true) :
    setRequest (requestFor name tag (setByte n) payload) ok act s = act n s := by
  have agrees : (requestFor name tag (setByte n) payload).lengthAgrees = true := by
    simp only [Request.lengthAgrees, requestFor, BitVec.toNat_ofNat, decide_eq_true_eq]
    omega
  have target : setTarget (requestFor name tag (setByte n) payload).target = some n := setTarget_setByte n
  have length : ok (requestFor name tag (setByte n) payload).payload.length = true := hok
  simp [setRequest, target, agrees, length]

/-- The response just built is the frame a free transmitter takes, unless a return frame waits. -/
theorem kick_answerHead {r : Request} {t : State} (a : Answer) (ht : t.quiet) :
    kick (modRequests (answerHead a) (joinQueue r t)) = t.answered r a := by
  obtain ⟨hqueue, hholding⟩ := ht
  have built : modRequests (answerHead a) (joinQueue r t) = { t.answered r a with trunk := t.trunk } := by
    simp [joinQueue, modRequests, answerHead, State.answered, Request.respond, hqueue]
  rw [built]
  by_cases hfree : t.trunk.transmitter = .free
  · cases hwaiting : t.trunk.waiting <;>
      simp [kick, startFrame, modTrunk, State.chooseFrame, RequestBlock.headResponse, State.answered, Trunk.offered, hfree,
        hholding hfree, hwaiting]
  · simp [kick, hfree, State.answered, Trunk.offered]

/-- A request other than SEG_RESET that arrives at a quiet queue, by what its execution does. -/
theorem arrive_eq_answered {r : Request} {s t : State} {a : Answer} (hs : s.requests.queue = []) (ht : t.quiet)
    (hreset : requestName r.code ≠ some .segReset) (hperform : perform r (joinQueue r s) = (joinQueue r t, a)) :
    arrive r s = t.answered r a := by
  have head : (joinQueue r s).requests.queue = [{ request := r, state := .waiting }] := by
    simp [joinQueue, modRequests, hs]
  have executed : executeHead (joinQueue r s) = modRequests (answerHead a) (joinQueue r t) := by
    simp [executeHead, head, hperform, discardsRest, hreset]
  simp [arrive, hs, executed, kick_answerHead a ht, Config.requestCapacity]

/-- A row of the table of requests at a quiet queue, by what the execution of its request does. -/
theorem exec_command_answered {name : RequestName} {tag target : Byte} {payload : Bytes} {s t : State} {a : Answer}
    (hs : s.quiet) (ht : t.quiet) (hreset : name ≠ .segReset)
    (hperform : perform (requestFor name tag target payload) (joinQueue (requestFor name tag target payload) s)
      = (joinQueue (requestFor name tag target payload) t, a)) :
    exec (name.command tag target (BitVec.ofNat 16 payload.length) payload) s
      = .next (t.answered (requestFor name tag target payload) a) := by
  have named : requestName (requestFor name tag target payload).code ≠ some .segReset := by
    simpa [requestFor, requestName_code] using hreset
  rw [exec_command, ← arrive_eq_answered hs.1 ht named hperform]
  rfl

end Sys2Proof.Machine
end

section
/-! SUPPORT. The Parameter Store's blocks: the pool's order (R115), the addresses of a set's bytes (R117), and that no two bytes of
the sets share an address. -/

namespace Sys2Proof.Machine

/-! ### The free pool -/

theorem insertBy_eq_orderedInsert {α : Type} (key : α → Nat) (a : α) (l : List α) :
    insertBy key a l = l.orderedInsert (fun x y => key x ≤ key y) a := by
  induction l with
  | nil => rfl
  | cons b l ih => simp [insertBy, ih]

theorem returnBlocks_perm (blocks pool : List Nat) : (returnBlocks blocks pool).Perm (pool ++ blocks) := by
  induction blocks generalizing pool with
  | nil => simp [returnBlocks]
  | cons b blocks ih =>
    have inserted : (insertBy id b pool).Perm (b :: pool) := by
      rw [insertBy_eq_orderedInsert]
      exact List.perm_orderedInsert _ b pool
    calc (returnBlocks blocks (insertBy id b pool)).Perm (insertBy id b pool ++ blocks) := ih _
      List.Perm _ (b :: pool ++ blocks) := inserted.append_right blocks
      List.Perm _ (pool ++ b :: blocks) := List.perm_middle.symm

theorem returnBlocks_pairwise_le (blocks : List Nat) {pool : List Nat} (h : pool.Pairwise (· ≤ ·)) :
    (returnBlocks blocks pool).Pairwise (· ≤ ·) := by
  induction blocks generalizing pool with
  | nil => exact h
  | cons b blocks ih =>
    have inserted : (insertBy id b pool).Pairwise (· ≤ ·) := by
      rw [insertBy_eq_orderedInsert]
      exact List.Pairwise.orderedInsert b pool h
    exact ih inserted

/-- Blocks that are not in the pool return to it in strictly rising order. -/
theorem returnBlocks_pairwise_lt {blocks pool : List Nat} (h : pool.Pairwise (· < ·)) (hn : (pool ++ blocks).Nodup) :
    (returnBlocks blocks pool).Pairwise (· < ·) := by
  have le := returnBlocks_pairwise_le blocks (h.imp Nat.le_of_lt)
  have ne : (returnBlocks blocks pool).Nodup := (returnBlocks_perm blocks pool).nodup_iff.mpr hn
  exact le.imp₂ (fun _ _ => Nat.lt_of_le_of_ne) ne

/-! ### Who holds a block -/

theorem Store.blocks_mem (st : Store) (n : SetIx) : (st.set n).blocks ∈ st.sets.toList.map SetRecord.blocks :=
  List.mem_map.mpr ⟨_, Vector.mem_toList_iff.mpr (Vector.getElem_mem n.isLt), rfl⟩

theorem StoreOk.nodup {s : State} (h : StoreOk s) :
    (s.store.pool ++ (s.store.sets.toList.map SetRecord.blocks).flatten).Nodup :=
  h.blocks.nodup_iff.mpr List.nodup_range

theorem StoreOk.nodup_pool_blocks {s : State} (h : StoreOk s) (n : SetIx) : (s.store.pool ++ (s.store.set n).blocks).Nodup :=
  h.nodup.sublist ((List.sublist_flatten_of_mem (s.store.blocks_mem n)).append_left _)

theorem StoreOk.blocks_disjoint {s : State} (h : StoreOk s) {m n : SetIx} (hmn : m ≠ n) :
    (s.store.set m).blocks.Disjoint (s.store.set n).blocks := by
  have apart := (List.nodup_flatten.mp h.nodup.of_append_right).2
  have hval : m.val ≠ n.val := fun e => hmn (Fin.ext e)
  rw [List.pairwise_iff_getElem] at apart
  rcases Nat.lt_or_gt_of_ne hval with lt | gt
  · simpa [Store.set] using apart m n (by simp) (by simp) lt
  · simpa [Store.set] using (apart n m (by simp) (by simp) gt).symm

theorem StoreOk.pool_disjoint {s : State} (h : StoreOk s) (n : SetIx) : s.store.pool.Disjoint (s.store.set n).blocks :=
  List.disjoint_of_nodup_append (h.nodup_pool_blocks n)

/-! ### Addresses (R117) -/

theorem SetRecord.address_of_lt {r : SetRecord} {o : Nat} (h : o / 256 < r.blocks.length) :
    r.address o = r.blocks[o / 256] * 256 + o % 256 := by
  simp [SetRecord.address, h]

theorem SetRecord.address_append {r q : SetRecord} {new : List Nat} (hq : q.blocks = r.blocks ++ new) {o : Nat}
    (h : o / 256 < r.blocks.length) : q.address o = r.address o := by
  simp [SetRecord.address, hq, List.getElem?_append_left h]

theorem SetRecord.address_injective {r : SetRecord} (hr : r.blocks.Nodup) {o p : Nat} (ho : o / 256 < r.blocks.length)
    (hp : p / 256 < r.blocks.length) (h : r.address o = r.address p) : o = p := by
  rw [address_of_lt ho, address_of_lt hp] at h
  have place : o / 256 = p / 256 := (hr.getElem_inj_iff (hi := ho) (hj := hp)).mp (by omega)
  omega

theorem SetRecord.address_ne {r q : SetRecord} (hd : r.blocks.Disjoint q.blocks) {o p : Nat} (ho : o / 256 < r.blocks.length)
    (hp : p / 256 < q.blocks.length) : r.address o ≠ q.address p := by
  rw [address_of_lt ho, address_of_lt hp]
  intro h
  have same : r.blocks[o / 256] = q.blocks[p / 256] := by omega
  exact hd (List.getElem_mem ho) (same ▸ List.getElem_mem hp)

/-- In a set whose list fits its length, every byte lies in a block of the list. -/
theorem StoreOk.place_lt {s : State} (h : StoreOk s) {n : SetIx} {k : Nat} (hk : k < (s.store.set n).length) :
    k / 256 < (s.store.set n).blocks.length := by
  rw [h.lists n]
  omega

/-! ### Placing bytes -/

/-- An address to which no byte goes reads as before. -/
theorem readCell_placeBytes_other (r : SetRecord) {o : Nat} {bytes : Bytes} {m : List Host.Cell} (hm : Memory.wf m = true) {k : Nat}
    (hk : ∀ j, o ≤ j → j < o + bytes.length → k ≠ r.address j) : readCell (placeBytes r o bytes m) k = readCell m k := by
  induction bytes generalizing o m with
  | nil => rfl
  | cons b bytes ih =>
    simp only [List.length_cons] at hk
    rw [placeBytes, ih (memoryWf_writeCell _ _ hm) fun j lo hi => hk j (by omega) (by omega)]
    exact readCell_writeCell_other b (hk o (by omega) (by omega)) hm

/-- Bytes placed at addresses that differ are read back. -/
theorem readCell_placeBytes_same (r : SetRecord) {o : Nat} {bytes : Bytes} {m : List Host.Cell} (hm : Memory.wf m = true)
    (hr : ∀ i j, i < o + bytes.length → j < o + bytes.length → r.address i = r.address j → i = j)
    {k : Nat} (lo : o ≤ k) (hi : k < o + bytes.length) :
    readCell (placeBytes r o bytes m) (r.address k) = bytes.getD (k - o) 0 := by
  induction bytes generalizing o m with
  | nil => simp at hi; omega
  | cons b bytes ih =>
    simp only [List.length_cons] at hr hi
    rcases Nat.eq_or_lt_of_le lo with rfl | lt
    · have later : ∀ j, o + 1 ≤ j → j < o + 1 + bytes.length → r.address o ≠ r.address j := fun j lo' hi' e => by
        have := hr o j (by omega) (by omega) e
        omega
      rw [placeBytes, readCell_placeBytes_other r (memoryWf_writeCell _ _ hm) later]
      simpa using readCell_writeCell_same (r.address o) b hm
    · obtain ⟨d, hd⟩ : ∃ d, k - o = d + 1 := ⟨k - o - 1, by omega⟩
      rw [placeBytes, ih (memoryWf_writeCell _ _ hm) (fun i j hi' hj' => hr i j (by omega) (by omega)) lt (by omega), hd,
        List.getD_cons_succ, show k - (o + 1) = d by omega]

/-! ### A write (R122) -/

/-- The record of a set after an accepted write. -/
def Store.writtenRecord (n : SetIx) (bytes : Bytes) (st : Store) : SetRecord :=
  { st.set n with
    length := (st.set n).length + bytes.length
    writePointer := some ((st.set n).length + bytes.length)
    blocks := (st.set n).blocks ++ st.pool.take ((st.set n).blocksNeeded bytes)
    sum16 := ((st.set n).sum16 + byteSum bytes) % 65536 }

theorem Store.writeSet_eq (n : SetIx) (bytes : Bytes) (st : Store) :
    st.writeSet n bytes =
      { sets := st.sets.set n (st.writtenRecord n bytes)
        pool := st.pool.drop ((st.set n).blocksNeeded bytes)
        memory := placeBytes (st.writtenRecord n bytes) (st.set n).length bytes st.memory } := rfl

theorem Store.writeSet_set_same (n : SetIx) (bytes : Bytes) (st : Store) :
    (st.writeSet n bytes).set n = st.writtenRecord n bytes := by
  simp [Store.writeSet_eq, Store.set]

theorem Store.writeSet_set_ne {m n : SetIx} (bytes : Bytes) (st : Store) (h : m ≠ n) :
    (st.writeSet n bytes).set m = st.set m := by
  have hval : n.val ≠ m.val := fun e => h (Fin.ext e.symm)
  simp [Store.writeSet_eq, Store.set, Vector.getElem_set_ne, hval]

/-- When the pool has the blocks needed, every byte of the written set lies in a block of its list. -/
theorem Store.writtenRecord_place_lt {st : Store} {n : SetIx} {bytes : Bytes}
    (hpool : (st.set n).blocksNeeded bytes ≤ st.pool.length) {k : Nat}
    (hk : k < (st.set n).length + bytes.length) : k / 256 < (st.writtenRecord n bytes).blocks.length := by
  have length : (st.writtenRecord n bytes).blocks.length
      = (st.set n).blocks.length + (st.set n).blocksNeeded bytes := by
    simp [Store.writtenRecord, Nat.min_eq_left hpool]
  rw [length, SetRecord.blocksNeeded, blocksFor]
  omega

section
variable {s : State} (h : StoreOk s) (n : SetIx) (bytes : Bytes)
include h

/-- The blocks of a written set differ: its own and those taken from the pool. -/
theorem StoreOk.writtenRecord_nodup : (s.store.writtenRecord n bytes).blocks.Nodup := by
  have both : ((s.store.set n).blocks ++ s.store.pool).Nodup := List.nodup_append_comm.mp (h.nodup_pool_blocks n)
  exact both.sublist ((List.take_sublist _ _).append_left _)

theorem StoreOk.writtenRecord_disjoint {m : SetIx} (hm : m ≠ n) :
    (s.store.set m).blocks.Disjoint (s.store.writtenRecord n bytes).blocks := by
  refine List.disjoint_append_right.mpr ⟨h.blocks_disjoint hm, fun b inSet inTaken => ?_⟩
  exact h.pool_disjoint m (List.mem_of_mem_take inTaken) inSet

/-- A write keeps the bytes the set held and puts the new ones behind them. -/
theorem StoreOk.byteOf_writeSet (hpool : (s.store.set n).blocksNeeded bytes ≤ s.store.pool.length) {k : Nat}
    (hk : k < (s.store.set n).length + bytes.length) :
    (s.store.writeSet n bytes).byteOf (s.store.writtenRecord n bytes) k
      = if k < (s.store.set n).length then s.store.byteOf (s.store.set n) k else bytes.getD (k - (s.store.set n).length) 0 := by
  have injective : ∀ i j, i < (s.store.set n).length + bytes.length → j < (s.store.set n).length + bytes.length →
      (s.store.writtenRecord n bytes).address i = (s.store.writtenRecord n bytes).address j → i = j := fun i j hi hj =>
    SetRecord.address_injective (h.writtenRecord_nodup n bytes) (Store.writtenRecord_place_lt hpool hi)
      (Store.writtenRecord_place_lt hpool hj)
  unfold Store.byteOf
  rw [Store.writeSet_eq]
  split
  · next old =>
    rw [readCell_placeBytes_other _ h.memory, SetRecord.address_append rfl (h.place_lt old)]
    intro j lo hi e
    have := injective k j hk hi e
    omega
  · next new => exact readCell_placeBytes_same _ h.memory injective (by omega) hk

/-- A write leaves every byte of the other sets. -/
theorem StoreOk.byteOf_writeSet_other (hpool : (s.store.set n).blocksNeeded bytes ≤ s.store.pool.length) {m : SetIx}
    (hm : m ≠ n) {k : Nat} (hk : k < (s.store.set m).length) :
    (s.store.writeSet n bytes).byteOf ((s.store.writeSet n bytes).set m) k = s.store.byteOf (s.store.set m) k := by
  rw [Store.writeSet_set_ne bytes s.store hm]
  refine readCell_placeBytes_other _ h.memory fun j _ hj => ?_
  exact SetRecord.address_ne (h.writtenRecord_disjoint n bytes hm) (h.place_lt hk) (Store.writtenRecord_place_lt hpool hj)

end

end Sys2Proof.Machine
end

section
/-! SUPPORT. What PSET_OPEN, PSET_DROP and PSET_WRITE do, one equation per case, and the obligations about them. -/

namespace Sys2Proof.Machine

/-! ### PSET_OPEN and PSET_DROP (R121, R124) -/

theorem SetRecord.pinnedClosed_iff (r : SetRecord) : r.pinnedClosed = true ↔ r.state = .closed ∧ 0 < r.pins := by
  simp [SetRecord.pinnedClosed]

section
variable {n : SetIx} {s : State}

theorem psetOpen_of_pinned (format : Nat) (h : (s.store.set n).state = .closed ∧ 0 < (s.store.set n).pins) :
    psetOpen format n s = (s, refuse .pinned) := by
  simp [psetOpen, (SetRecord.pinnedClosed_iff _).mpr h]

theorem psetOpen_of_unpinned (format : Nat) (h : ¬ ((s.store.set n).state = .closed ∧ 0 < (s.store.set n).pins)) :
    psetOpen format n s = (modStore (Store.openSet n format) s,
      done (.freeBlocks (returnBlocks (s.store.set n).blocks s.store.pool).length)) := by
  rw [← SetRecord.pinnedClosed_iff] at h
  simp [psetOpen, h, Store.freeCount, Store.openSet]

theorem psetDrop_of_pinned (h : (s.store.set n).state = .closed ∧ 0 < (s.store.set n).pins) :
    psetDrop n s = (s, refuse .pinned) := by
  simp [psetDrop, (SetRecord.pinnedClosed_iff _).mpr h]

theorem psetDrop_of_free (h : (s.store.set n).state = .free) : psetDrop n s = (s, done .none) := by
  simp [psetDrop, SetRecord.pinnedClosed, h]

theorem psetDrop_of_unpinned (h : ¬ ((s.store.set n).state = .closed ∧ 0 < (s.store.set n).pins))
    (hfree : (s.store.set n).state ≠ .free) : psetDrop n s = (modStore (Store.dropSet n) s, done .none) := by
  rw [← SetRecord.pinnedClosed_iff] at h
  simp [psetDrop, h, hfree]

end

theorem perform_psetOpen (tag f₁ f₂ : Byte) (n : SetIx) (s : State) :
    perform (requestFor .psetOpen tag (setByte n) [f₁, f₂]) s = psetOpen (f₁.toNat * 256 + f₂.toNat) n s :=
  setRequest_requestFor .psetOpen tag n [f₁, f₂] (ok := exactly 2) (psetOpen _) s (by simp) rfl

theorem perform_psetDrop (tag : Byte) (n : SetIx) (s : State) :
    perform (requestFor .psetDrop tag (setByte n) []) s = psetDrop n s :=
  setRequest_requestFor .psetDrop tag n [] (ok := exactly 0) psetDrop s (by simp) rfl

section
variable {tag f₁ f₂ : Byte} {n : SetIx} {s t : State} {a : Answer}

theorem exec_psetOpen_answered (hs : s.quiet) (ht : t.quiet)
    (hact : ∀ r, psetOpen (f₁.toNat * 256 + f₂.toNat) n (joinQueue r s) = (joinQueue r t, a)) :
    exec (.psetOpen tag (setByte n) 2 [f₁, f₂]) s = .next (t.answered (requestFor .psetOpen tag (setByte n) [f₁, f₂]) a) :=
  exec_command_answered (name := .psetOpen) (payload := [f₁, f₂]) hs ht nofun ((perform_psetOpen ..).trans (hact _))

theorem exec_psetDrop_answered (hs : s.quiet) (ht : t.quiet) (hact : ∀ r, psetDrop n (joinQueue r s) = (joinQueue r t, a)) :
    exec (.psetDrop tag (setByte n) 0 []) s = .next (t.answered (requestFor .psetDrop tag (setByte n) []) a) :=
  exec_command_answered (name := .psetDrop) (payload := []) hs ht nofun ((perform_psetDrop ..).trans (hact _))

end

/-- Settles O23: a set's blocks are in no other place, so their return keeps the pool strictly rising. -/
theorem psetOpenAndDropFreeTheBlocks : Obligations.PsetOpenAndDropFreeTheBlocks := by
  unfold Obligations.PsetOpenAndDropFreeTheBlocks
  intro s tag f₁ f₂ n quiet ok
  refine ⟨fun pinned => ⟨?_, ?_⟩, fun unpinned => ⟨returnBlocks (s.store.set n).blocks s.store.pool, returnBlocks_perm _ _,
    returnBlocks_pairwise_lt ok.rising (ok.nodup_pool_blocks n), ?_, fun used => ?_⟩, fun free => ?_⟩
  · exact exec_psetOpen_answered quiet quiet fun _ => psetOpen_of_pinned _ pinned
  · exact exec_psetDrop_answered quiet quiet fun _ => psetDrop_of_pinned pinned
  · exact exec_psetOpen_answered (t := modStore (Store.openSet n _) s) quiet quiet fun _ => psetOpen_of_unpinned _ unpinned
  · exact exec_psetDrop_answered (t := modStore (Store.dropSet n) s) quiet quiet fun _ => psetDrop_of_unpinned unpinned used
  · exact exec_psetDrop_answered quiet quiet fun _ => psetDrop_of_free free

/-! ### PSET_WRITE (R122) -/

section
variable {n : SetIx} {s : State} (bytes : Bytes)

theorem psetWrite_of_notOpen (h : (s.store.set n).state ≠ .opened) : psetWrite bytes n s = (s, refuse .notOpen) := by
  simp [psetWrite, h]

theorem psetWrite_of_tooLong (h : (s.store.set n).state = .opened) (hlong : 4096 < (s.store.set n).length + bytes.length) :
    psetWrite bytes n s = (s, refuse .tooLong) := by
  simp [psetWrite, h, Config.setMax, hlong]

theorem psetWrite_of_noSpace (h : (s.store.set n).state = .opened) (hfits : (s.store.set n).length + bytes.length ≤ 4096)
    (hspace : s.store.pool.length < (s.store.set n).blocksNeeded bytes) : psetWrite bytes n s = (s, refuse .noSpace) := by
  simp [psetWrite, h, Config.setMax, Nat.not_lt.mpr hfits, Store.freeCount, hspace]

theorem psetWrite_of_fits (h : (s.store.set n).state = .opened) (hfits : (s.store.set n).length + bytes.length ≤ 4096)
    (hspace : (s.store.set n).blocksNeeded bytes ≤ s.store.pool.length) :
    psetWrite bytes n s = (modStore (Store.writeSet n bytes) s,
      done (.written ((s.store.set n).length + bytes.length) (s.store.pool.length - (s.store.set n).blocksNeeded bytes))) := by
  have length : ((s.store.writeSet n bytes).set n).length = (s.store.set n).length + bytes.length := by
    rw [Store.writeSet_set_same, Store.writtenRecord]
  have pool : (s.store.writeSet n bytes).pool.length = s.store.pool.length - (s.store.set n).blocksNeeded bytes := by
    simp [Store.writeSet_eq]
  simp [psetWrite, h, Config.setMax, Nat.not_lt.mpr hfits, Store.freeCount, Nat.not_lt.mpr hspace, length, pool]

end

theorem perform_psetWrite (tag : Byte) (n : SetIx) {bytes : Bytes} (s : State) (hmin : 1 ≤ bytes.length)
    (hmax : bytes.length ≤ 512) :
    perform (requestFor .psetWrite tag (setByte n) bytes) s = psetWrite bytes n s :=
  setRequest_requestFor .psetWrite tag n bytes (ok := fun k => decide (1 ≤ k ∧ k ≤ 512)) (psetWrite bytes) s hmax
    (decide_eq_true ⟨hmin, hmax⟩)

theorem exec_psetWrite_answered {tag : Byte} {n : SetIx} {bytes : Bytes} {s t : State} {a : Answer} (hs : s.quiet) (ht : t.quiet)
    (hmin : 1 ≤ bytes.length) (hmax : bytes.length ≤ 512)
    (hact : ∀ r, psetWrite bytes n (joinQueue r s) = (joinQueue r t, a)) :
    exec (.psetWrite tag (setByte n) (BitVec.ofNat 16 bytes.length) bytes) s
      = .next (t.answered (requestFor .psetWrite tag (setByte n) bytes) a) :=
  exec_command_answered (name := .psetWrite) hs ht nofun ((perform_psetWrite tag n _ hmin hmax).trans (hact _))

/-- Settles O24: no two bytes of the sets share an address, so the bytes placed reach only the offsets written. -/
theorem psetWriteAppends : Obligations.PsetWriteAppends := by
  unfold Obligations.PsetWriteAppends
  intro s tag n bytes quiet ok hmin hmax
  refine ⟨fun notOpen => ?_, fun opened long => ?_, fun opened fits space => ?_, fun opened fits space =>
    ⟨(s.store.writeSet n bytes).memory, ?_, fun k hk => ?_, fun m k hm hk => ?_, memoryWf_placeBytes _ _ _ ok.memory⟩⟩
  · exact exec_psetWrite_answered quiet quiet hmin hmax fun _ => psetWrite_of_notOpen bytes notOpen
  · exact exec_psetWrite_answered quiet quiet hmin hmax fun _ => psetWrite_of_tooLong bytes opened long
  · exact exec_psetWrite_answered quiet quiet hmin hmax fun _ => psetWrite_of_noSpace bytes opened fits space
  · exact exec_psetWrite_answered (t := modStore (Store.writeSet n bytes) s) quiet quiet hmin hmax
      fun _ => psetWrite_of_fits bytes opened fits space
  · exact ok.byteOf_writeSet n bytes space hk
  · exact ok.byteOf_writeSet_other n bytes space hm hk

end Sys2Proof.Machine
end

section
/-! SUPPORT. The commands by what they are operations of, and what an event at one slot leaves of the trunk: its record, and the
retained image. -/

namespace Sys2Proof.Machine

/-! ### Events at one slot -/

/-- The operations that commands at slot `i` are: presence lines, switches, inrush timers, and the slot's link. -/
inductive AtSlot (i : SlotIx) : (State → State) → Prop where
  | lineAsserts : AtSlot i (lineAsserts i)
  | lineDrops : AtSlot i (lineDrops i)
  | presentExpired : AtSlot i (presentExpired i)
  | absentExpired : AtSlot i (absentExpired i)
  | minimumExpired : AtSlot i (minimumExpired i)
  | powerGoodSeen : AtSlot i (powerGoodSeen i)
  | deadlineExpired : AtSlot i (deadlineExpired i)
  | tripped : AtSlot i (tripped i)
  | runPhaseExpired : AtSlot i (runPhaseExpired i)
  | turnaroundEnds : AtSlot i (turnaroundEnds i)
  | receive (m : Bytes) : AtSlot i (receive i m)
  | echoWaitExpired : AtSlot i (echoWaitExpired i)
  | attemptFailed : AtSlot i (attemptFailed i)
  | controlAnswerExpired : AtSlot i (controlAnswerExpired i)
  | bulkAnswerExpired : AtSlot i (bulkAnswerExpired i)
  | backoffExpired : AtSlot i (backoffExpired i)
  | bulkWaitExpired : AtSlot i (bulkWaitExpired i)
  | absenceExpired : AtSlot i (absenceExpired i)
  | modLink (f : LinkEngine → LinkEngine) : AtSlot i (modLink i f)

/-- What holds of the nine operations of the device as a whole and of every event at one slot holds of every command. -/
theorem exec_induction {s : State} {P : State → Prop} (power : P (powerOn s)) (request : ∀ r, P (arrive r s))
    (frame : ∀ bs, P (takeFrame bs s)) (loss : P (lossExpired s)) (tick : P (tickExpired s)) (gap : P (gapEnds s))
    (returned : P (returnSent s)) (response : P (responseSent s)) (event : ∀ i f, AtSlot i f → P (f s)) (c : Instr) :
    ∃ t, exec c s = .next t ∧ P t := by
  cases c
  case powerOn => exact ⟨_, rfl, power⟩
  case serviceRequestArrival => exact ⟨_, rfl, frame _⟩
  case cycleFrame => exact ⟨_, rfl, frame _⟩
  case downstreamFrameDiscard => exact ⟨_, rfl, frame _⟩
  case cycleLossTimerExpiry => exact ⟨_, rfl, loss⟩
  case localTick => exact ⟨_, rfl, tick⟩
  case transmitterFree => exact ⟨_, rfl, gap⟩
  case returnFrameSent => exact ⟨_, rfl, returned⟩
  case serviceResponseSent => exact ⟨_, rfl, response⟩
  case presenceLineAssert => exact ⟨_, rfl, event _ _ .lineAsserts⟩
  case presenceLineDrop => exact ⟨_, rfl, event _ _ .lineDrops⟩
  case presentTimerExpiry => exact ⟨_, rfl, event _ _ .presentExpired⟩
  case absentTimerExpiry => exact ⟨_, rfl, event _ _ .absentExpired⟩
  case inrushMinimumExpiry => exact ⟨_, rfl, event _ _ .minimumExpired⟩
  case powerGood => exact ⟨_, rfl, event _ _ .powerGoodSeen⟩
  case powerGoodTimeout => exact ⟨_, rfl, event _ _ .deadlineExpired⟩
  case trip => exact ⟨_, rfl, event _ _ .tripped⟩
  case runPhaseTimerExpiry => exact ⟨_, rfl, event _ _ .runPhaseExpired⟩
  case turnaroundExpiry => exact ⟨_, rfl, event _ _ .turnaroundEnds⟩
  case echoWaitExpiry => exact ⟨_, rfl, event _ _ .echoWaitExpired⟩
  case trainingAttemptTimeout => exact ⟨_, rfl, event _ _ .attemptFailed⟩
  case controlAnswerTimeout => exact ⟨_, rfl, event _ _ .controlAnswerExpired⟩
  case bulkAnswerTimeout => exact ⟨_, rfl, event _ _ .bulkAnswerExpired⟩
  case bulkBackoffExpiry => exact ⟨_, rfl, event _ _ .backoffExpired⟩
  case bulkWaitTimerExpiry => exact ⟨_, rfl, event _ _ .bulkWaitExpired⟩
  case linkDrop => exact ⟨_, rfl, event _ _ .absenceExpired⟩
  case linkAliveChange => exact ⟨_, rfl, event _ _ (.modLink _)⟩
  case slotLinkMessageEnd => exact ⟨_, rfl, event _ _ (.modLink _)⟩
  case trainEcho => exact ⟨_, rfl, event _ _ (.receive _)⟩
  case controlAnswer => exact ⟨_, rfl, event _ _ (.receive _)⟩
  case bulkAck => exact ⟨_, rfl, event _ _ (.receive _)⟩
  case bulkWait => exact ⟨_, rfl, event _ _ (.receive _)⟩
  case bulkRefuse => exact ⟨_, rfl, event _ _ (.receive _)⟩
  case corruptBulkAnswer => exact ⟨_, rfl, event _ _ (.receive _)⟩
  case cyclicIn => exact ⟨_, rfl, event _ _ (.receive _)⟩
  case linkMessageDiscard => exact ⟨_, rfl, event _ _ (.receive _)⟩
  all_goals exact ⟨_, rfl, request _⟩

/-- An event at one slot touches nothing that `Evolves` keeps. -/
theorem AtSlot.evolves {i : SlotIx} {f : State → State} (h : AtSlot i f) (s : State) : Evolves s (f s) := by
  have r := Evolves.refl s
  cases h with
  | lineAsserts => exact .lineAsserts i r
  | lineDrops => exact .lineDrops i r
  | presentExpired => exact .presentExpired i r
  | absentExpired => exact .absentExpired i r
  | minimumExpired => exact .minimumExpired i r
  | powerGoodSeen => exact .powerGoodSeen i r
  | deadlineExpired => exact .deadlineExpired i r
  | tripped => exact .tripped i r
  | runPhaseExpired => exact .runPhaseExpired i r
  | turnaroundEnds => exact .turnaroundEnds i r
  | receive m => exact .receive i m r
  | echoWaitExpired => exact .echoWaitExpired i r
  | attemptFailed => exact .attemptFailed i r
  | controlAnswerExpired => exact .controlAnswerExpired i r
  | bulkAnswerExpired => exact .bulkAnswerExpired i r
  | backoffExpired => exact .backoffExpired i r
  | bulkWaitExpired => exact .bulkWaitExpired i r
  | absenceExpired => exact .absenceExpired i r
  | modLink g => exact .modLink i g r

/-- R142, R71: a cycle frame touches nothing that `Evolves` keeps. -/
theorem takeCycleFrame_evolves (bs : Bytes) (s : State) : Evolves s (atExchangeStart (takeCycleFrame bs) s) :=
  .atExchangeStart _ (fun l _ h => .takeCycleFrame bs l h) (.refl s)

/-! ### Steps -/

/-- Settles O1: both are the two branches of `step`. -/
theorem stepTakesTheFrontCommand : Obligations.StepTakesTheFrontCommand := by
  unfold Obligations.StepTakesTheFrontCommand
  intro s
  exact ⟨fun c rest h => by simp only [step, h], fun h => by simp only [step, h]⟩

/-- What every command keeps, whatever waits behind it, every step keeps. -/
theorem step_keeps {P : State → Prop} (pending : ∀ s rest, P s → P { s with pending := rest })
    (h : ∀ c s, P s → ∃ t, exec c s = .next t ∧ P t) {s t : State} (hs : P s) (e : step s = .next t) : P t := by
  unfold step at e
  split at e
  · cases e; exact hs
  · next c rest _ =>
    obtain ⟨u, hu, hP⟩ := h c _ (pending s rest hs)
    rw [hu] at e
    cases e; exact hP

/-! ### The waiting commands (log entry 19) -/

@[simp] theorem kick_pending (s : State) : (kick s).pending = s.pending := (Evolves.kick (.refl s)).pending

@[simp] theorem executeHead_pending (s : State) : (executeHead s).pending = s.pending := by
  unfold executeHead
  split
  · rfl
  · split
    · exact (perform_serves _ s).pending
    · rfl

@[simp] theorem arrive_pending (r : Request) (s : State) : (arrive r s).pending = s.pending := by
  rw [arrive, kick_pending]
  split
  · split
    · rw [executeHead_pending]; rfl
    · rfl
  · rfl

@[simp] theorem takeFrame_pending (bs : Bytes) (s : State) : (takeFrame bs s).pending = s.pending := by
  unfold takeFrame
  dsimp only
  split
  · exact (takeCycleFrame_evolves _ s).pending
  · unfold takeServiceFrame
    split
    · rfl
    · rw [arrive_pending]
  · rfl

@[simp] theorem powerOn_pending (s : State) : (powerOn s).pending = s.pending := by
  rw [powerOn, examineLines, (Evolves.eachSlot _ (fun i _ => Evolves.examineLine i) (.refl _)).pending]

@[simp] theorem returnSent_pending (s : State) : (returnSent s).pending = s.pending := by
  unfold returnSent; split <;> rfl

@[simp] theorem responseSent_pending (s : State) : (responseSent s).pending = s.pending := by
  unfold responseSent
  split
  · rw [executeHead_pending]; rfl
  · rfl
  · rfl

/-- Settles O2: no arm faults or refuses, and no operation writes the waiting commands. -/
theorem everyCommandCompletes : Obligations.EveryCommandCompletes := by
  unfold Obligations.EveryCommandCompletes
  intro c s
  have r := Evolves.refl s
  exact exec_induction (P := fun t => t.pending = s.pending) (powerOn_pending s) (fun r => arrive_pending r s)
    (fun bs => takeFrame_pending bs s) (Evolves.lossExpired r).pending (Evolves.tickExpired r).pending
    (Evolves.gapEnds r).pending (returnSent_pending s) (responseSent_pending s) (fun _ _ h => (h.evolves s).pending) c

/-! ### Reset -/

/-- Settles O3: every field of the reset state is one of its literals. -/
theorem resetHoldsTheStatedValues : Obligations.ResetHoldsTheStatedValues := by
  unfold Obligations.ResetHoldsTheStatedValues
  refine ⟨fun i => ?_, fun n => ?_, ?_⟩
  · have h : State.reset.slot i = Slot.reset false false := by simp [State.slot, State.reset]
    simp [State.ctx, State.slotPower, State.link, State.map, State.expected, h, Slot.reset, Context.reset, SlotPower.reset,
      LinkEngine.reset, SlotMap.reset]
  · have h : State.reset.store.set n = SetRecord.reset := by simp [Store.set, State.reset]
    simp [h, SetRecord.reset]
  · simp [State.reset, Store.freeCount]

end Sys2Proof.Machine
end

section
/-! SUPPORT. What no operation at a slot touches: the Trunk Interface record and the retained image. One equation per operation. -/

namespace Sys2Proof.Machine

/-- The Trunk Interface record and the retained image (R141, R168). -/
def State.trunkSide (s : State) : Trunk × Bytes := (s.trunk, s.retained)

theorem trunk_of_trunkSide {s t : State} (h : t.trunkSide = s.trunkSide) : t.trunk = s.trunk := congrArg Prod.fst h

theorem trunk_of_trunkSide_eq {s : State} {x : Trunk × Bytes} (h : s.trunkSide = x) : s.trunk = x.1 := congrArg Prod.fst h

/-! ### The plain updates -/

@[simp] theorem modCtx_trunkSide (i : SlotIx) (f : Context → Context) (s : State) : (modCtx i f s).trunkSide = s.trunkSide := rfl
@[simp] theorem modLink_trunkSide (i : SlotIx) (f : LinkEngine → LinkEngine) (s : State) :
    (modLink i f s).trunkSide = s.trunkSide := rfl
@[simp] theorem modPower_trunkSide (i : SlotIx) (f : SlotPower → SlotPower) (s : State) :
    (modPower i f s).trunkSide = s.trunkSide := rfl
@[simp] theorem modMap_trunkSide (i : SlotIx) (f : SlotMap → SlotMap) (s : State) : (modMap i f s).trunkSide = s.trunkSide := rfl
@[simp] theorem setExpected_trunkSide (i : SlotIx) (r : Option ExpRecord) (s : State) :
    (setExpected i r s).trunkSide = s.trunkSide := rfl
@[simp] theorem modRack_trunkSide (f : PowerBlock → PowerBlock) (s : State) : (modRack f s).trunkSide = s.trunkSide := rfl
@[simp] theorem modStore_trunkSide (f : Store → Store) (s : State) : (modStore f s).trunkSide = s.trunkSide := rfl
@[simp] theorem post_trunkSide (o : Option SlotIx) (b : EventBody) (s : State) : (post o b s).trunkSide = s.trunkSide := rfl
@[simp] theorem choices_trunkSide (n : Nat) (s : State) : ({ s with choices := n } : State).trunkSide = s.trunkSide := rfl

@[simp] theorem ite_trunkSide {c : Prop} [Decidable c] (s t : State) :
    (if c then s else t).trunkSide = if c then s.trunkSide else t.trunkSide := apply_ite ..

theorem foldl_trunkSide {α : Type} {act : State → α → State} (h : ∀ t a, (act t a).trunkSide = t.trunkSide) (l : List α)
    (s : State) : (l.foldl act s).trunkSide = s.trunkSide := by
  induction l generalizing s with
  | nil => rfl
  | cons a l ih => exact (ih (act s a)).trans (h s a)

theorem eachSlot_trunkSide {act : SlotIx → State → State} (h : ∀ i t, (act i t).trunkSide = t.trunkSide) (s : State) :
    (eachSlot act s).trunkSide = s.trunkSide := foldl_trunkSide (fun t i => h i t) _ s

theorem forList_trunkSide (l : List SlotIx) {act : SlotIx → State → State} (h : ∀ i t, (act i t).trunkSide = t.trunkSide)
    (s : State) : (forList l act s).trunkSide = s.trunkSide := foldl_trunkSide (fun t i => h i t) _ _

/-! ### Sending and the power block -/

@[simp] theorem sendNow_trunkSide (i : SlotIx) (x : NextSend) (s : State) : (sendNow i x s).trunkSide = s.trunkSide := rfl

@[simp] theorem send_trunkSide (i : SlotIx) (x : NextSend) (s : State) : (send i x s).trunkSide = s.trunkSide := by
  simp [send]

@[simp] theorem pass_trunkSide (s : State) : (pass s).trunkSide = s.trunkSide := by
  have b := Beside.pass (checks := False) s
  exact Prod.ext b.trunk b.retained

@[simp] theorem leaveQueue_trunkSide (i : SlotIx) (s : State) : (leaveQueue i s).trunkSide = s.trunkSide := rfl

@[simp] theorem join_trunkSide (i : SlotIx) (x : Stage) (n : Nat) (s : State) : (join i x n s).trunkSide = s.trunkSide := by
  simp [join]

theorem besidePass_trunkSide (due : Bool) {report : State → State} (h : ∀ t, (report t).trunkSide = t.trunkSide) (s : State) :
    (besidePass due report s).trunkSide = s.trunkSide := by
  simp [besidePass, eitherOrder, h]

@[simp] theorem switchOff_trunkSide (i : SlotIx) (s : State) : (switchOff i s).trunkSide = s.trunkSide := by
  simp [switchOff, freeAllowance]

@[simp] theorem examineLine_trunkSide (i : SlotIx) (s : State) : (examineLine i s).trunkSide = s.trunkSide := by
  simp [examineLine, assertion]

/-! ### The slot context -/

@[simp] theorem milestone_trunkSide (i : SlotIx) (s : State) : (milestone i s).trunkSide = s.trunkSide := rfl

@[simp] theorem tryAdmit_trunkSide (i : SlotIx) (s : State) : (tryAdmit i s).trunkSide = s.trunkSide := by
  have b := Beside.tryAdmit i s
  exact Prod.ext b.trunk b.retained

@[simp] theorem recheckAll_trunkSide (s : State) : (recheckAll s).trunkSide = s.trunkSide :=
  forList_trunkSide _ tryAdmit_trunkSide s

@[simp] theorem recheckIf_trunkSide (due : Bool) (s : State) : (recheckIf due s).trunkSide = s.trunkSide := by
  simp [recheckIf]

@[simp] theorem enterReady_trunkSide (i : SlotIx) (s : State) : (enterReady i s).trunkSide = s.trunkSide := by
  simp [enterReady]

@[simp] theorem armWindows_trunkSide (i : SlotIx) (s : State) : (armWindows i s).trunkSide = s.trunkSide := by
  unfold armWindows
  split <;> simp [refuseAdmission]

@[simp] theorem unpin_trunkSide (i : SlotIx) (s : State) : (unpin i s).trunkSide = s.trunkSide := by
  unfold unpin
  split <;> rfl

@[simp] theorem releases_trunkSide (i : SlotIx) (s : State) : (releases i s).trunkSide = s.trunkSide := by
  simp [releases, disarm]

theorem withReleases_trunkSide (i : SlotIx) {finish : State → State} (h : ∀ t, (finish t).trunkSide = t.trunkSide) (s : State) :
    (withReleases i finish s).trunkSide = s.trunkSide :=
  (besidePass_trunkSide _ (fun t => by simp [h]) _).trans (releases_trunkSide i s)

@[simp] theorem enterEmpty_trunkSide (i : SlotIx) (s : State) : (enterEmpty i s).trunkSide = s.trunkSide := by simp [enterEmpty]

@[simp] theorem enterWithdrawn_trunkSide (i : SlotIx) (r : Reason) (s : State) : (enterWithdrawn i r s).trunkSide = s.trunkSide := by
  simp [enterWithdrawn]

@[simp] theorem enterFaulted_trunkSide (i : SlotIx) (f : Option FaultRecord) (s : State) :
    (enterFaulted i f s).trunkSide = s.trunkSide := by simp [enterFaulted]

@[simp] theorem enterDraining_trunkSide (i : SlotIx) (r : Reason) (s : State) : (enterDraining i r s).trunkSide = s.trunkSide := by
  simp [enterDraining, retire]

@[simp] theorem definitiveFault_trunkSide (i : SlotIx) (k : FaultKind) (d : Nat) (s : State) :
    (definitiveFault i k d s).trunkSide = s.trunkSide := withReleases_trunkSide i (enterFaulted_trunkSide i _) s

@[simp] theorem baseTraining_trunkSide (i : SlotIx) (s : State) : (baseTraining i s).trunkSide = s.trunkSide := by
  simp [baseTraining]

@[simp] theorem retry_trunkSide (i : SlotIx) (s : State) : (retry i s).trunkSide = s.trunkSide := by
  simp [retry, besidePass_trunkSide, disarm, backToStandby, freeAllowance]

@[simp] theorem transientFault_trunkSide (i : SlotIx) (k : FaultKind) (s : State) :
    (transientFault i k s).trunkSide = s.trunkSide := by
  simp [transientFault, raiseAttempts]

@[simp] theorem enterRunWait_trunkSide (i : SlotIx) (s : State) : (enterRunWait i s).trunkSide = s.trunkSide := by
  simp [enterRunWait]

@[simp] theorem holdPointOne_trunkSide (i : SlotIx) (s : State) : (holdPointOne i s).trunkSide = s.trunkSide := by
  simp [holdPointOne]

@[simp] theorem pinFor_trunkSide (n : Option SetIx) (s : State) : (pinFor n s).trunkSide = s.trunkSide := by
  unfold pinFor
  split <;> rfl

@[simp] theorem park_trunkSide (i : SlotIx) (r : Reason) (x : MatchResult) (p : Option Nat) (o : SetOutcome) (c : Nat) (s : State) :
    (park i r x p o c s).trunkSide = s.trunkSide := by
  simp [park]

@[simp] theorem goForward_trunkSide (i : SlotIx) (x : MatchResult) (l : Layout) (c : RateCode) (b : Bool) (n : Nat) (s : State) :
    (goForward i x l c b n s).trunkSide = s.trunkSide := by
  simp [goForward]

@[simp] theorem runMatching_trunkSide (i : SlotIx) (s : State) : (runMatching i s).trunkSide = s.trunkSide := by
  unfold runMatching
  split
  · rfl
  · split
    · split
      · split <;> simp
      · simp [withReleases_trunkSide]
    · split <;> simp

@[simp] theorem beginWalk_trunkSide (i : SlotIx) (s : State) : (beginWalk i s).trunkSide = s.trunkSide := by simp [beginWalk]

@[simp] theorem readAnswered_trunkSide (i : SlotIx) (d : Bytes) (s : State) : (readAnswered i d s).trunkSide = s.trunkSide := by
  unfold readAnswered
  split
  · rfl
  · split <;> simp

@[simp] theorem setPhase_trunkSide (i : SlotIx) (p : DownloadPhase) (s : State) : (setPhase i p s).trunkSide = s.trunkSide := rfl

@[simp] theorem enterParameterizing_trunkSide (i : SlotIx) (n : SetIx) (s : State) :
    (enterParameterizing i n s).trunkSide = s.trunkSide := by
  unfold enterParameterizing
  dsimp only
  split <;> simp

@[simp] theorem runPhaseEnded_trunkSide (i : SlotIx) (s : State) : (runPhaseEnded i s).trunkSide = s.trunkSide := by
  unfold runPhaseEnded
  split
  · split <;> simp
  · rfl

@[simp] theorem bulkComplete_trunkSide (i : SlotIx) (s : State) : (bulkComplete i s).trunkSide = s.trunkSide := by
  simp [bulkComplete]

@[simp] theorem startTransfer_trunkSide (i : SlotIx) (s : State) : (startTransfer i s).trunkSide = s.trunkSide := by
  unfold startTransfer
  split <;> simp

@[simp] theorem stopEnded_trunkSide (i : SlotIx) (s : State) : (stopEnded i s).trunkSide = s.trunkSide :=
  withReleases_trunkSide i (enterWithdrawn_trunkSide i _) s

@[simp] theorem drainComplete_trunkSide (i : SlotIx) (s : State) : (drainComplete i s).trunkSide = s.trunkSide := by
  unfold drainComplete
  dsimp only
  split <;> simp [withReleases_trunkSide]

/-! ### Reports -/

@[simp] theorem reportLinkLost_trunkSide (i : SlotIx) (s : State) : (reportLinkLost i s).trunkSide = s.trunkSide := by
  simp [reportLinkLost, raiseAttempts]

@[simp] theorem reportPresent_trunkSide (i : SlotIx) (s : State) : (reportPresent i s).trunkSide = s.trunkSide := by
  simp [reportPresent]

@[simp] theorem reportAbsent_trunkSide (i : SlotIx) (s : State) : (reportAbsent i s).trunkSide = s.trunkSide := by
  have drained := withReleases_trunkSide i (modCtx_trunkSide i fun c => { c with reason := some .presenceLost }) s
  unfold reportAbsent
  split <;> simp [withReleases_trunkSide, drained]

@[simp] theorem reportTrip_trunkSide (i : SlotIx) (s : State) : (reportTrip i s).trunkSide = s.trunkSide := by
  unfold reportTrip
  dsimp only
  split <;> simp [withReleases_trunkSide]

@[simp] theorem reportInrushComplete_trunkSide (i : SlotIx) (s : State) : (reportInrushComplete i s).trunkSide = s.trunkSide := by
  simp [reportInrushComplete]

@[simp] theorem reportLinkDrop_trunkSide (i : SlotIx) (s : State) : (reportLinkDrop i s).trunkSide = s.trunkSide := by
  simp [reportLinkDrop]

@[simp] theorem reportLinkTrain_trunkSide (i : SlotIx) (s : State) : (reportLinkTrain i s).trunkSide = s.trunkSide := by
  simp [reportLinkTrain]

@[simp] theorem reportLinkUp_trunkSide (i : SlotIx) (s : State) : (reportLinkUp i s).trunkSide = s.trunkSide := by
  unfold reportLinkUp
  split <;> simp

@[simp] theorem reportControlTimeout_trunkSide (i : SlotIx) (s : State) : (reportControlTimeout i s).trunkSide = s.trunkSide := by
  unfold reportControlTimeout
  split <;> simp

@[simp] theorem reportBulkFault_trunkSide (i : SlotIx) (k : FaultKind) (s : State) :
    (reportBulkFault i k s).trunkSide = s.trunkSide := by
  simp [reportBulkFault]

@[simp] theorem reportStall_trunkSide (i : SlotIx) (d : Nat) (s : State) : (reportStall i d s).trunkSide = s.trunkSide := by
  simp [reportStall]

@[simp] theorem reportBulkComplete_trunkSide (i : SlotIx) (s : State) : (reportBulkComplete i s).trunkSide = s.trunkSide := by
  simp [reportBulkComplete]

@[simp] theorem reportOk_trunkSide (i : SlotIx) (r : ControlReq) (d : Bytes) (s : State) :
    (reportOk i r d s).trunkSide = s.trunkSide := by
  unfold reportOk
  split <;> simp [rateTraining, downloadComplete]

@[simp] theorem reportRefused_trunkSide (i : SlotIx) (r : ControlReq) (c : Nat) (s : State) :
    (reportRefused i r c s).trunkSide = s.trunkSide := by
  unfold reportRefused
  split <;> simp [setRateRefused]

/-! ### Exchanges and windows -/

@[simp] theorem concludeExchange_trunkSide (b : SlotIx → Bool) (i : SlotIx) (s : State) :
    (concludeExchange b i s).trunkSide = s.trunkSide := by
  simp [concludeExchange, miss]

@[simp] theorem startBuilt_trunkSide (f : OutFlag) (b : Bytes) (i : SlotIx) (s : State) :
    (startBuilt f b i s).trunkSide = s.trunkSide := by
  simp [startBuilt, startExchange]

@[simp] theorem startHold_trunkSide (i : SlotIx) (s : State) : (startHold i s).trunkSide = s.trunkSide := by
  simp [startHold, startExchange]

@[simp] theorem goVacant_trunkSide (i : SlotIx) (s : State) : (goVacant i s).trunkSide = s.trunkSide := by
  simp [goVacant, reportVacant]

@[simp] theorem markWindows_trunkSide (i : SlotIx) (s : State) : (markWindows i s).trunkSide = s.trunkSide := by
  simp [markWindows, goLive]

@[simp] theorem recheckAfter_trunkSide (l : List SlotIx) (b s : State) : (recheckAfter l b s).trunkSide = s.trunkSide := by
  simp [recheckAfter]

@[simp] theorem recordStatus_trunkSide (s : State) : (recordStatus s).trunkSide = s.trunkSide :=
  eachSlot_trunkSide (fun _ _ => rfl) s

@[simp] theorem localTick_trunkSide (b : SlotIx → Bool) (s : State) : (localTick b s).trunkSide = s.trunkSide := by
  simp [localTick, eachSlot_trunkSide, forList_trunkSide]

/-! ### The events at a slot -/

@[simp] theorem receiveControl_trunkSide (i : SlotIx) (r : ControlReq) (n : Nat) (m : Option LinkFrame) (s : State) :
    (receiveControl i r n m s).trunkSide = s.trunkSide := by
  unfold receiveControl
  split
  · rfl
  · unfold handReply
    split <;> simp

@[simp] theorem resendPacket_trunkSide (i : SlotIx) (b : Bulk) (s : State) : (resendPacket i b s).trunkSide = s.trunkSide := by
  simp [resendPacket]

@[simp] theorem receiveBulk_trunkSide (i : SlotIx) (b : Bulk) (m : Option LinkFrame) (s : State) :
    (receiveBulk i b m s).trunkSide = s.trunkSide := by
  unfold receiveBulk
  split
  · rfl
  · split <;> simp [packetAcknowledged, packetDelayed, packetRefused]

@[simp] theorem receiveCyclic_trunkSide (i : SlotIx) (m : Option LinkFrame) (s : State) :
    (receiveCyclic i m s).trunkSide = s.trunkSide := by
  unfold receiveCyclic
  split <;> rfl

@[simp] theorem attemptPassed_trunkSide (i : SlotIx) (s : State) : (attemptPassed i s).trunkSide = s.trunkSide := by
  unfold attemptPassed
  split <;> simp

@[simp] theorem echoFailed_trunkSide (i : SlotIx) (s : State) : (echoFailed i s).trunkSide = s.trunkSide := by simp [echoFailed]

@[simp] theorem receiveEcho_trunkSide (i : SlotIx) (m : Option LinkFrame) (s : State) :
    (receiveEcho i m s).trunkSide = s.trunkSide := by
  simp [receiveEcho, echoCounted]

@[simp] theorem deliver_trunkSide (i : SlotIx) (m : Option LinkFrame) (s : State) : (deliver i m s).trunkSide = s.trunkSide := by
  unfold deliver receiveUp
  split
  · rfl
  · rfl
  · simp
  · split <;> simp

@[simp] theorem inrushComplete_trunkSide (i : SlotIx) (s : State) : (inrushComplete i s).trunkSide = s.trunkSide := by
  simp [inrushComplete, besidePass_trunkSide, freeAllowance]

/-- An event at one slot leaves the trunk's record and the retained image. -/
theorem trunkSide_of_atSlot {i : SlotIx} {f : State → State} (h : AtSlot i f) (s : State) : (f s).trunkSide = s.trunkSide := by
  cases h with
  | lineAsserts => simp [lineAsserts]
  | lineDrops => simp [lineDrops]
  | presentExpired => simp [presentExpired]
  | absentExpired => simp [absentExpired]
  | minimumExpired => simp [minimumExpired]
  | powerGoodSeen => simp [powerGoodSeen]
  | deadlineExpired => simp [deadlineExpired, besidePass_trunkSide, reportPowerGoodTimeout]
  | tripped => simp [tripped, besidePass_trunkSide]
  | runPhaseExpired => simp [runPhaseExpired, besidePass_trunkSide, freeAllowance]
  | turnaroundEnds =>
    unfold turnaroundEnds
    dsimp only
    split
    · rfl
    · split <;> simp
  | receive m => simp [receive]
  | echoWaitExpired => simp [echoWaitExpired]
  | attemptFailed =>
    unfold attemptFailed
    split <;> simp [nextAttempt, trainingFailed]
  | controlAnswerExpired =>
    unfold controlAnswerExpired
    split
    · rfl
    · split <;> simp
  | bulkAnswerExpired => unfold bulkAnswerExpired; split <;> simp
  | backoffExpired => unfold backoffExpired; split <;> simp
  | bulkWaitExpired => unfold bulkWaitExpired; split <;> simp
  | absenceExpired => simp [absenceExpired]
  | modLink g => rfl

end Sys2Proof.Machine
end

section
/-! SUPPORT. The order and the capacities of the request queue, the transmitter and the event queue (R140, R175 to R177, R182,
R190), which every step keeps. -/

namespace Sys2Proof.Machine

/-! ### What stands between the parts of a command -/

/-- RequestsOk but for what is yet to be done within a command: the head may wait for its execution, and a free transmitter may have
a frame to take. -/
structure Lined (s : State) : Prop where
  events : s.events.events.length ≤ 32
  requests : s.requests.queue.length ≤ 4
  answers : s.requests.holding.length ≤ 4
  answered : ∀ e ∈ s.requests.queue.tail, ∀ x, e.state ≠ .answered x
  order : s.requests.queue.tail.Pairwise fun a b => a.state = .waiting → b.state = .waiting
  sendsHead : s.trunk.transmitter = .sendingHead → s.requests.queue ≠ []
  sendsBusy : s.trunk.transmitter = .sendingBusy → s.requests.holding ≠ []

/-- R177: the head entry has its answer. -/
def State.headDone (s : State) : Prop := ∀ e, s.requests.queue.head? = some e → e.state ≠ .waiting

theorem RequestsOk.lined {s : State} (h : RequestsOk s) : Lined s :=
  ⟨h.events, h.requests, h.answers, h.answered, h.order, h.sendsHead, h.sendsBusy⟩

theorem Lined.requestsOk {s : State} (h : Lined s) (head : s.headDone)
    (free : s.trunk.transmitter = .free → s.trunk.waiting = none ∧ s.requests.queue = [] ∧ s.requests.holding = []) :
    RequestsOk s :=
  ⟨h.events, h.requests, h.answers, head, h.answered, h.order, free, h.sendsHead, h.sendsBusy⟩

/-- What keeps the requests, the transmitter and the capacity of the event queue keeps the lines. -/
theorem Lined.congr {s t : State} (h : Lined s) (requests : t.requests = s.requests)
    (transmitter : t.trunk.transmitter = s.trunk.transmitter) (events : t.events.events.length ≤ 32) : Lined t := by
  obtain ⟨-, h₂, h₃, h₄, h₅, h₆, h₇⟩ := h
  rw [← requests] at h₂ h₃ h₄ h₅ h₆ h₇
  rw [← transmitter] at h₆ h₇
  exact ⟨events, h₂, h₃, h₄, h₅, h₆, h₇⟩

theorem RequestsOk.congr {s t : State} (h : RequestsOk s) (requests : t.requests = s.requests)
    (transmitter : t.trunk.transmitter = s.trunk.transmitter) (waiting : t.trunk.waiting = s.trunk.waiting)
    (events : t.events.events.length ≤ 32) : RequestsOk t := by
  refine (h.lined.congr requests transmitter events).requestsOk ?_ ?_
  · rw [State.headDone, requests]; exact h.head
  · rw [requests, transmitter, waiting]; exact h.free

theorem RequestsOk.evolves {s t : State} (h : RequestsOk s) (e : Evolves s t) (side : t.trunkSide = s.trunkSide) :
    RequestsOk t := by
  have trunk := trunk_of_trunkSide side
  exact h.congr e.requests (by rw [trunk]) (by rw [trunk]) (e.capacity h.events)

/-! ### The transmitter (R140, R182) -/

theorem headResponse_none {b : RequestBlock} (head : ∀ e, b.queue.head? = some e → e.state ≠ .waiting)
    (h : b.headResponse = none) : b.queue = [] := by
  unfold RequestBlock.headResponse at h
  split at h
  · next e => exact e
  · next e _ hq =>
    have := head e (by rw [hq]; rfl)
    split at h <;> simp_all

theorem queue_ne_nil_of_headResponse {b : RequestBlock} {r : Response} (h : b.headResponse = some r) : b.queue ≠ [] := by
  rintro e
  simp [RequestBlock.headResponse, e] at h

/-- R140: what a transmitter takes is there, and it stays free only when nothing is. -/
theorem startFrame_requestsOk {s : State} (h : Lined s) (head : s.headDone) : RequestsOk (startFrame s) := by
  have chosen : ∀ x, s.chooseFrame = x →
      (x = .free → s.requests.queue = [] ∧ s.requests.holding = []) ∧ (x = .sendingHead → s.requests.queue ≠ [])
        ∧ (x = .sendingBusy → s.requests.holding ≠ []) := by
    rintro x rfl
    unfold State.chooseFrame
    split
    · simp
    · split
      · next hnone hbusy => simp [headResponse_none head hnone, hbusy]
      · next hsome _ => simp [queue_ne_nil_of_headResponse hsome]
      · next hbusy => simp [hbusy]
      · next hsome hbusy => split <;> simp [queue_ne_nil_of_headResponse hsome, hbusy]
  obtain ⟨free, sendsHead, sendsBusy⟩ := chosen _ rfl
  exact ⟨h.events, h.requests, h.answers, head, h.answered, h.order, fun e => ⟨rfl, free e⟩, sendsHead, sendsBusy⟩

theorem kick_requestsOk {s : State} (h : Lined s) (head : s.headDone) : RequestsOk (kick s) := by
  unfold kick
  split
  · exact startFrame_requestsOk h head
  · next busy => exact h.requestsOk head fun free => absurd free busy

theorem buildReturn_requestsOk (rejected : Bool) {s : State} (h : Lined s) (head : s.headDone) :
    RequestsOk (buildReturn rejected s) := by
  have e : Evolves s (recordStatus s) := .recordStatus (.refl s)
  have trunk := trunk_of_trunkSide (recordStatus_trunkSide s)
  have lined : Lined (recordStatus s) := h.congr e.requests (by rw [trunk]) (e.capacity h.events)
  have done : (recordStatus s).headDone := by rw [State.headDone, e.requests]; exact head
  unfold buildReturn
  generalize recordStatus s = u at lined done
  exact kick_requestsOk (lined.congr rfl rfl lined.events) done

/-! ### The execution of the head (R177, R186) -/

/-- The upstream transmitter goes on with what it does. -/
def SameTransmitter (s t : State) : Prop := t.trunk.transmitter = s.trunk.transmitter

theorem SameTransmitter.refl (s : State) : SameTransmitter s s := rfl

theorem SameTransmitter.of_side {s t : State} (h : t.trunkSide = s.trunkSide) : SameTransmitter s t := by
  rw [SameTransmitter, trunk_of_trunkSide h]

theorem segCycle_transmitter (p o i g : Nat) (s : State) : SameTransmitter s (segCycle p o i g s).1 := by
  unfold segCycle
  split
  · exact .refl s
  · dsimp only
    rw [SameTransmitter, trunk_of_trunkSide (recheckAll_trunkSide _), modTrunk_trunk]
    dsimp only [Trunk.configure]
    split <;> rfl

theorem segBudget_transmitter (b : Nat) (s : State) : SameTransmitter s (segBudget b s).1 := by
  unfold segBudget
  split
  · exact .refl s
  · exact .of_side (by simp [setBudget])

theorem resetBlocks_trunkSide (s : State) : (examineLines (resetBlocks s)).trunkSide = (s.trunk.segReset, []) := by
  rw [examineLines, eachSlot_trunkSide examineLine_trunkSide]
  rfl

theorem performSegReset_transmitter (r : Request) (s : State) : SameTransmitter s (performSegReset r s).1 := by
  have trunk : (examineLines (resetBlocks s)).trunk = s.trunk.segReset := trunk_of_trunkSide_eq (resetBlocks_trunkSide s)
  unfold performSegReset
  rcases segmentRequest_cases r (exactly 0) (fun s => (examineLines (resetBlocks s), done .none)) s with e | e
  · rw [e]; exact .refl s
  · rw [e, SameTransmitter]
    dsimp only
    rw [trunk, Trunk.segReset]

theorem expLoad_trunkSide (p : Bytes) (i : SlotIx) (s : State) : (expLoad p i s).1.trunkSide = s.trunkSide := by
  unfold expLoad
  split
  · rfl
  · split
    · rfl
    · simp [actOnLoad, withReleases_trunkSide]

theorem expClear_trunkSide (i : SlotIx) (s : State) : (expClear i s).1.trunkSide = s.trunkSide := by
  unfold expClear
  split
  · rfl
  · split
    · rfl
    · simp [actOnClear]

theorem psetClose_trunkSide (n : SetIx) (s : State) : (psetClose n s).1.trunkSide = s.trunkSide := by
  unfold psetClose
  split
  · rfl
  · dsimp only
    rw [forList_trunkSide _ runMatching_trunkSide, modStore_trunkSide]

theorem release_trunkSide (i : SlotIx) (s : State) : (release i s).trunkSide = s.trunkSide := by
  unfold release
  dsimp only
  split <;> simp

theorem slotRestart_trunkSide (i : SlotIx) (s : State) : (slotRestart i s).1.trunkSide = s.trunkSide := by
  unfold slotRestart
  split
  · rfl
  · exact withReleases_trunkSide i (fun t => by simp [restartSettling, retire]) s

theorem slotWithdraw_trunkSide (i : SlotIx) (s : State) : (slotWithdraw i s).1.trunkSide = s.trunkSide := by
  unfold slotWithdraw withdraw
  split
  · rfl
  · dsimp only
    split <;> simp [withReleases_trunkSide]

/-- No request touches the upstream transmitter. -/
theorem perform_transmitter (r : Request) (s : State) : SameTransmitter s (perform r s).1 := by
  have h0 := SameTransmitter.refl s
  unfold perform
  match requestName r.code with
  | none | some .segIdent | some .segAttn | some .expRead | some .psetList | some .slotRead | some .slotHold | some .mapRead =>
    first
      | exact h0
      | exact segmentRequest_keeps (P := SameTransmitter s) h0 h0
      | exact slotRequest_keeps (P := SameTransmitter s) h0 fun _ => h0
  | some .segCycle => exact segmentRequest_keeps (P := SameTransmitter s) h0 (segCycle_transmitter _ _ _ _ s)
  | some .segBudget => exact segmentRequest_keeps (P := SameTransmitter s) h0 (segBudget_transmitter _ s)
  | some .segReset => exact performSegReset_transmitter r s
  | some .expLoad => exact slotRequest_keeps (P := SameTransmitter s) h0 fun i => .of_side (expLoad_trunkSide _ i s)
  | some .expClear => exact slotRequest_keeps (P := SameTransmitter s) h0 fun i => .of_side (expClear_trunkSide i s)
  | some .psetOpen => exact setRequest_keeps (P := SameTransmitter s) h0 fun n => by unfold psetOpen; split <;> rfl
  | some .psetWrite =>
    refine setRequest_keeps (P := SameTransmitter s) h0 fun n => .of_side ?_
    simp only [psetWrite, apply_ite Prod.fst, ite_trunkSide, modStore_trunkSide, ite_self]
  | some .psetClose => exact setRequest_keeps (P := SameTransmitter s) h0 fun n => .of_side (psetClose_trunkSide n s)
  | some .psetDrop =>
    refine setRequest_keeps (P := SameTransmitter s) h0 fun n => .of_side ?_
    simp only [psetDrop, apply_ite Prod.fst, ite_trunkSide, modStore_trunkSide, ite_self]
  | some .psetRead => exact setRequest_keeps (P := SameTransmitter s) h0 fun n => by rw [psetRead_fst]; exact h0
  | some .slotRelease => exact slotRequest_keeps (P := SameTransmitter s) h0 fun i => .of_side (release_trunkSide i s)
  | some .slotRestart => exact slotRequest_keeps (P := SameTransmitter s) h0 fun i => .of_side (slotRestart_trunkSide i s)
  | some .slotWithdraw => exact slotRequest_keeps (P := SameTransmitter s) h0 fun i => .of_side (slotWithdraw_trunkSide i s)
  | some .evtRead => exact segmentRequest_keeps (P := SameTransmitter s) h0 (by unfold evtRead; split <;> rfl)

theorem Lined.perform {s : State} (h : Lined s) (r : Request) : Lined (perform r s).1 :=
  h.congr (perform_serves r s).requests (perform_transmitter r s) ((perform_serves r s).capacity h.events)

/-- What a change of the request block alone leaves. -/
theorem Lined.modRequests {s : State} (h : Lined s) (f : RequestBlock → RequestBlock)
    (queue : (f s.requests).queue.length ≤ 4 ∧ (s.requests.queue ≠ [] → (f s.requests).queue ≠ []))
    (holding : (f s.requests).holding.length ≤ 4 ∧ (s.requests.holding ≠ [] → (f s.requests).holding ≠ []))
    (answered : ∀ e ∈ (f s.requests).queue.tail, ∀ x, e.state ≠ .answered x)
    (order : (f s.requests).queue.tail.Pairwise fun a b => a.state = .waiting → b.state = .waiting) :
    Lined (modRequests f s) :=
  ⟨h.events, queue.1, holding.1, answered, order, fun e => queue.2 (h.sendsHead e), fun e => holding.2 (h.sendsBusy e)⟩

theorem answerHead_cons (a : Answer) {b : RequestBlock} {e : Entry} {rest : List Entry} (h : b.queue = e :: rest) :
    answerHead a b = { b with queue := { e with state := .answered (e.request.respond a b.built) } :: rest
                              built := b.built + 1 } := by
  simp [answerHead, h]

theorem discardEntries_length (k : Nat) (l : List Entry) : (discardEntries k l).length = l.length := by
  induction l generalizing k with
  | nil => rfl
  | cons e l ih => simp [discardEntries, ih]

theorem mem_discardEntries {k : Nat} {l : List Entry} {e : Entry} (h : e ∈ discardEntries k l) :
    ∃ r, e.state = .discarded r := by
  induction l generalizing k with
  | nil => simp [discardEntries] at h
  | cons x l ih =>
    rcases List.mem_cons.1 h with rfl | h
    · exact ⟨_, rfl⟩
    · exact ih h

/-- R177, R186: the head has its answer, and what it discards stands before nothing that waits. -/
theorem executeHead_lined {s : State} (h : Lined s) : Lined (executeHead s) ∧ (executeHead s).headDone := by
  unfold executeHead
  split
  · next hq => exact ⟨h, by simp [State.headDone, hq]⟩
  · next e rest hq =>
    split
    · next hw =>
      have p := h.perform e.request
      have hqp : (perform e.request s).1.requests.queue = e :: rest := by rw [(perform_serves e.request s).requests, hq]
      have length : rest.length + 1 ≤ 4 := by simpa [hqp] using p.requests
      have answered : ∀ x ∈ rest, ∀ r, x.state ≠ .answered r := by simpa [hqp] using p.answered
      have order : rest.Pairwise fun a b => a.state = .waiting → b.state = .waiting := by simpa [hqp] using p.order
      dsimp only
      generalize (perform e.request s).2 = a
      generalize (perform e.request s).1 = t at p hqp
      by_cases discards : discardsRest e.request a = true
      · have queue : (discardRest (answerHead a t.requests)).queue
            = { e with state := .answered (e.request.respond a t.requests.built) }
              :: discardEntries (t.requests.built + 1) rest := by
          simp [answerHead_cons a hqp, discardRest]
        have holding : (discardRest (answerHead a t.requests)).holding = t.requests.holding := by
          simp [answerHead_cons a hqp, discardRest]
        simp only [discards, if_true]
        refine ⟨p.modRequests _ ⟨?_, ?_⟩ ⟨?_, ?_⟩ ?_ ?_, ?_⟩
        · simpa [queue, discardEntries_length] using length
        · simp [queue]
        · rw [holding]; exact p.answers
        · rw [holding]; exact id
        · intro x hx r
          obtain ⟨d, hd⟩ := mem_discardEntries (by simpa [queue] using hx)
          simp [hd]
        · rw [queue, List.tail_cons]
          refine List.Pairwise.imp_of_mem ?_ (List.pairwise_of_forall (R := fun _ _ => True) fun _ _ => trivial)
          intro x y hx _ _ w
          obtain ⟨d, hd⟩ := mem_discardEntries hx
          simp [hd] at w
        · simp [State.headDone, queue]
      · simp only [discards, if_false, Bool.false_eq_true]
        refine ⟨p.modRequests _ ⟨?_, ?_⟩ ⟨?_, ?_⟩ ?_ ?_, ?_⟩
        · simpa [answerHead_cons a hqp] using length
        · simp [answerHead_cons a hqp]
        · simpa [answerHead_cons a hqp] using p.answers
        · simp [answerHead_cons a hqp]
        · simpa [answerHead_cons a hqp] using answered
        · simpa [answerHead_cons a hqp] using order
        · simp [State.headDone, answerHead_cons a hqp]
    · next hw => exact ⟨h, by simpa [State.headDone, hq] using hw⟩

/-! ### Arrival and departure of requests (R175, R176, R182) -/

theorem joinQueue_lined (r : Request) {s : State} (h : Lined s) (space : s.requests.queue.length < 4) : Lined (joinQueue r s) := by
  refine h.modRequests _ ⟨?_, ?_⟩ ⟨h.answers, id⟩ ?_ ?_
  · simpa using space
  · simp
  · cases hq : s.requests.queue with
    | nil => simp
    | cons e rest =>
      have := h.answered
      simp only [hq, List.tail_cons] at this
      simp only [List.cons_append, List.tail_cons, List.mem_append, List.mem_singleton]
      rintro x (hx | rfl) y
      · exact this x hx y
      · simp
  · cases hq : s.requests.queue with
    | nil => simp
    | cons e rest =>
      have := h.order
      simp only [hq, List.tail_cons] at this
      simpa [List.pairwise_append] using this

theorem joinQueue_headDone (r : Request) {s : State} (head : s.headDone) (h : s.requests.queue ≠ []) : (joinQueue r s).headDone := by
  obtain ⟨e, rest, hq⟩ := List.exists_cons_of_ne_nil h
  simpa [State.headDone, joinQueue, modRequests, hq] using head

theorem answerBusy_lined (r : Request) {s : State} (h : Lined s) : Lined (answerBusy r s) := by
  refine h.modRequests _ ⟨?_, ?_⟩ ⟨?_, ?_⟩ ?_ ?_ <;> split
  · exact h.requests
  · exact h.requests
  · exact id
  · exact id
  · next space => simpa [Config.holdingCapacity] using space
  · exact h.answers
  · simp
  · exact id
  · exact h.answered
  · exact h.answered
  · exact h.order
  · exact h.order

theorem answerBusy_queue (r : Request) (s : State) : (answerBusy r s).requests.queue = s.requests.queue := by
  simp only [answerBusy, modRequests_requests]
  split <;> rfl

theorem arrive_requestsOk (r : Request) {s : State} (h : RequestsOk s) : RequestsOk (arrive r s) := by
  unfold arrive
  split
  · next space =>
    split
    · obtain ⟨lined, done⟩ := executeHead_lined (joinQueue_lined r h.lined space)
      exact kick_requestsOk lined done
    · next waits => exact kick_requestsOk (joinQueue_lined r h.lined space) (joinQueue_headDone r h.head waits)
  · refine kick_requestsOk (answerBusy_lined r h.lined) ?_
    rw [State.headDone, answerBusy_queue]
    exact h.head

theorem responseSent_requestsOk {s : State} (h : RequestsOk s) : RequestsOk (responseSent s) := by
  unfold responseSent
  split
  · have left : Lined (modTrunk (fun t => { t with transmitter := .gap Config.upstreamGap })
        (modRequests (fun b => { b with queue := b.queue.tail }) s)) :=
      ⟨h.events, (s.requests.queue.tail_sublist.length_le).trans h.requests, h.answers, fun e he => h.answered e (List.mem_of_mem_tail he),
        h.order.sublist (List.tail_sublist _), by simp, by simp⟩
    obtain ⟨lined, done⟩ := executeHead_lined left
    refine lined.requestsOk done fun free => ?_
    have gap : (executeHead (modTrunk (fun t => { t with transmitter := .gap Config.upstreamGap })
        (modRequests (fun b => { b with queue := b.queue.tail }) s))).trunk.transmitter = .gap Config.upstreamGap := by
      unfold executeHead
      split
      · rfl
      · split
        · exact perform_transmitter _ _
        · rfl
    rw [gap] at free
    cases free
  · exact ⟨h.events, h.requests, (s.requests.holding.tail_sublist.length_le).trans h.answers, h.head, h.answered, h.order, by simp, by simp, by simp⟩
  · exact h

theorem returnSent_requestsOk {s : State} (h : RequestsOk s) : RequestsOk (returnSent s) := by
  unfold returnSent
  split
  · exact ⟨h.events, h.requests, h.answers, h.head, h.answered, h.order, by simp, by simp, by simp⟩
  all_goals exact h

/-! ### Frames and the trunk's timers -/

/-- What a mark and a bad frame build their return frame in. -/
theorem RequestsOk.before_return {s t : State} (h : RequestsOk s) (e : Evolves s t)
    (transmitter : t.trunk.transmitter = s.trunk.transmitter) : Lined t ∧ t.headDone :=
  ⟨h.lined.congr e.requests transmitter (e.capacity h.events), by rw [State.headDone, e.requests]; exact h.head⟩

theorem markTrunk_transmitter (n : Nat) (s : State) : (markTrunk n s).trunk.transmitter = s.trunk.transmitter := by
  unfold markTrunk
  dsimp only
  split <;> rfl

theorem cycleMark_requestsOk (l : SlotIx → Bool) (n : Nat) (v : Bool) (b : Bytes) {s : State} (h : RequestsOk s) :
    RequestsOk (cycleMark l n v b s) := by
  unfold cycleMark
  dsimp only
  generalize s.slotsWhere _ = changed
  generalize ht : recheckAfter changed _ _ = t
  have e : Evolves s t := ht ▸ .recheckAfter _ _ (.forList _ _ (fun i _ => .markWindows i)
    (.eachSlot _ (fun i _ => .concludeExchange _ i) (.markTrunk n (.refl s))))
  have side : t.trunkSide = (markTrunk n s).trunkSide := by
    simp [← ht, forList_trunkSide, eachSlot_trunkSide]
  have transmitter : t.trunk.transmitter = s.trunk.transmitter := by
    rw [trunk_of_trunkSide side, markTrunk_transmitter]
  obtain ⟨lined, done⟩ := h.before_return
    (t := eachSlot (startBuilt (if v then .valid else .invalid) b) { t with retained := b })
    (.eachSlot _ (fun i _ => .startBuilt _ _ i) (.retained b e))
    (by rw [trunk_of_trunkSide (eachSlot_trunkSide (startBuilt_trunkSide _ _) _)]; exact transmitter)
  exact buildReturn_requestsOk _ lined done

theorem badFrame_requestsOk (l : SlotIx → Bool) {s : State} (h : RequestsOk s) : RequestsOk (badFrame l s) := by
  have rejected : Evolves s (modTrunk (fun t => { t with rejected := true }) s) := .modTrunk _ (fun _ => ⟨rfl, rfl, rfl, rfl⟩) (.refl s)
  unfold badFrame
  dsimp only
  split
  · obtain ⟨lined, done⟩ := h.before_return rejected rfl
    exact buildReturn_requestsOk _ lined done
  · obtain ⟨lined, done⟩ := h.before_return
      (.eachSlot _ (fun i _ => .startHold i) (.eachSlot _ (fun i _ => .concludeExchange l i) rejected))
      (by rw [trunk_of_trunkSide (eachSlot_trunkSide startHold_trunkSide _),
            trunk_of_trunkSide (eachSlot_trunkSide (concludeExchange_trunkSide l) _)]; rfl)
    exact buildReturn_requestsOk _ lined done

theorem RequestsOk.choices {s : State} (h : RequestsOk s) (n : Nat) : RequestsOk { s with choices := n } :=
  h.congr rfl rfl rfl h.events

theorem takeFrame_requestsOk (bs : Bytes) {s : State} (h : RequestsOk s) : RequestsOk (takeFrame bs s) := by
  unfold takeFrame
  dsimp only
  split
  · unfold atExchangeStart takeCycleFrame
    split
    · exact cycleMark_requestsOk _ _ _ _ (h.choices _)
    · exact badFrame_requestsOk _ (h.choices _)
  · unfold takeServiceFrame
    split
    · exact h
    · exact arrive_requestsOk _ h
  · exact h

theorem lossExpired_requestsOk {s : State} (h : RequestsOk s) : RequestsOk (lossExpired s) := by
  have e : Evolves s (lossExpired s) := .lossExpired (.refl s)
  refine h.congr e.requests ?_ ?_ (e.capacity h.events) <;> (unfold lossExpired; split <;> rfl)

theorem tickExpired_requestsOk {s : State} (h : RequestsOk s) : RequestsOk (tickExpired s) := by
  refine h.evolves (.tickExpired (.refl s)) ?_
  unfold tickExpired atExchangeStart
  split
  · rfl
  · exact (localTick_trunkSide _ _).trans rfl

theorem gapEnds_requestsOk {s : State} (h : RequestsOk s) : RequestsOk (gapEnds s) := by
  unfold gapEnds
  split
  · exact startFrame_requestsOk h.lined h.head
  · exact startFrame_requestsOk h.lined h.head
  all_goals exact h

theorem powerOn_requestsOk (s : State) : RequestsOk (powerOn s) := by
  unfold powerOn examineLines
  generalize hu : ({ State.reset with slots := _, choices := _, pending := _ } : State) = u
  have e : Evolves u (eachSlot examineLine u) := .eachSlot _ (fun i _ => .examineLine i) (.refl u)
  have blank : RequestsOk u := by
    subst hu
    constructor <;> simp [State.reset]
  exact blank.evolves e (eachSlot_trunkSide examineLine_trunkSide u)

/-- Settles O57: `Lined` is what holds at every point within a command; the execution of the head and the start of a frame complete
it to RequestsOk. -/
theorem everyStepKeepsTheQueues : Obligations.EveryStepKeepsTheQueues := by
  unfold Obligations.EveryStepKeepsTheQueues
  intro s t h e
  refine step_keeps (P := RequestsOk) (fun s rest h => h.congr rfl rfl rfl h.events) (fun c s h => ?_) h e
  exact exec_induction (powerOn_requestsOk s) (fun r => arrive_requestsOk r h) (fun bs => takeFrame_requestsOk bs h)
    (lossExpired_requestsOk h) (tickExpired_requestsOk h) (gapEnds_requestsOk h) (returnSent_requestsOk h)
    (responseSent_requestsOk h) (fun i f event => h.evolves (event.evolves s) (trunkSide_of_atSlot event s)) c

end Sys2Proof.Machine
end

section
/-! SUPPORT. The Parameter Store (R115 to R118, R122), which every step keeps: what replaces one set's record and the pool together
keeps every block in one place. -/

namespace Sys2Proof.Machine

/-! ### What the store is read by -/

theorem StoreOk.congr {s t : State} (h : StoreOk s) (pool : t.store.pool = s.store.pool) (memory : t.store.memory = s.store.memory)
    (sets : ∀ n, (t.store.set n).unpinned = (s.store.set n).unpinned) : StoreOk t := by
  have blocks : t.store.sets.toList.map SetRecord.blocks = s.store.sets.toList.map SetRecord.blocks := by
    refine List.ext_getElem (by simp) fun k hk _ => ?_
    have := congrArg SetRecord.blocks (sets ⟨k, by simpa using hk⟩)
    simpa [Store.set, SetRecord.unpinned] using this
  have field : ∀ {α : Type} (f : SetRecord → α), (∀ r : SetRecord, f r.unpinned = f r) → ∀ n, f (t.store.set n) = f (s.store.set n) :=
    fun f hf n => by rw [← hf, sets, hf]
  have list := field SetRecord.blocks fun _ => rfl
  have length := field SetRecord.length fun _ => rfl
  have state := field SetRecord.state fun _ => rfl
  have pointer := field SetRecord.writePointer fun _ => rfl
  have sum := field SetRecord.sum16 fun _ => rfl
  exact
    { blocks := by rw [blocks, pool]; exact h.blocks
      rising := by rw [pool]; exact h.rising
      lists := fun n => by rw [list, length]; exact h.lists n
      lengths := fun n => by rw [length]; exact h.lengths n
      pointers := fun n => by rw [pointer, state, length]; exact h.pointers n
      free := fun n => by rw [state, length, sum]; exact h.free n
      memory := by rw [memory]; exact h.memory }

theorem StoreOk.evolves {s t : State} (h : StoreOk s) (e : Evolves s t) : StoreOk t := h.congr e.pool e.memory e.sets

theorem StoreOk.of_store_eq {s t : State} (h : StoreOk s) (e : t.store = s.store) : StoreOk t :=
  h.congr (by rw [e]) (by rw [e]) fun n => by rw [e]

/-! ### One set's record replaced -/

/-- The blocks the sets hold, before and after one record is replaced: those of the other sets stand. -/
theorem Store.blocks_set (st : Store) (n : SetIx) (r : SetRecord) : ∃ others : List Nat,
    (st.sets.toList.map SetRecord.blocks).flatten.Perm ((st.set n).blocks ++ others)
      ∧ ((st.sets.set n r).toList.map SetRecord.blocks).flatten.Perm (r.blocks ++ others) := by
  have hn : n.val < st.sets.toList.length := by simp
  refine ⟨((st.sets.toList.take n).map SetRecord.blocks).flatten
    ++ ((st.sets.toList.drop (n + 1)).map SetRecord.blocks).flatten, ?_, ?_⟩
  · have split : st.sets.toList = st.sets.toList.take n ++ st.set n :: st.sets.toList.drop (n + 1) := by
      conv_lhs => rw [← List.take_append_drop n st.sets.toList]
      rw [List.drop_eq_getElem_cons hn]
      simp [Store.set]
    conv_lhs => rw [split]
    simpa using List.perm_append_comm_assoc ..
  · rw [Vector.toList_set, List.set_eq_take_append_cons_drop, if_pos hn]
    simpa using List.perm_append_comm_assoc ..

/-- A set's record, the pool and the memory are replaced: the blocks of set and pool together are those they held, and the record
keeps the rules of R116 to R118. -/
theorem StoreOk.replace {s t : State} (h : StoreOk s) (n : SetIx) {r : SetRecord} {pool : List Nat} {memory : List Host.Cell}
    (store : t.store = { sets := s.store.sets.set n r, pool := pool, memory := memory })
    (blocks : (pool ++ r.blocks).Perm (s.store.pool ++ (s.store.set n).blocks)) (rising : pool.Pairwise (· < ·))
    (list : r.blocks.length = (r.length + 255) / 256) (length : r.length ≤ 4096)
    (pointer : r.writePointer = if r.state = .opened then some r.length else none)
    (free : r.state = .free → r.length = 0 ∧ r.sum16 = 0) (wf : Memory.wf memory = true) : StoreOk t := by
  have each : ∀ P : SetRecord → Prop, P r → (∀ m, P (s.store.set m)) → ∀ m, P (t.store.set m) := by
    intro P hr hs m
    rw [store]
    by_cases e : n = m
    · subst e; simpa [Store.set] using hr
    · have e' : n.val ≠ m.val := fun e' => e (Fin.ext e')
      simpa [Store.set, Vector.getElem_set_ne, e'] using hs m
  obtain ⟨others, before, after⟩ := s.store.blocks_set n r
  refine ⟨?_, by rw [store]; exact rising, each (fun r => r.blocks.length = (r.length + 255) / 256) list h.lists,
    each (fun r => r.length ≤ 4096) length h.lengths,
    each (fun r => r.writePointer = if r.state = .opened then some r.length else none) pointer h.pointers,
    each (fun r => r.state = .free → r.length = 0 ∧ r.sum16 = 0) free h.free, by rw [store]; exact wf⟩
  rw [store]
  refine List.Perm.trans ?_ h.blocks
  calc pool ++ ((s.store.sets.set n r).toList.map SetRecord.blocks).flatten
      |>.Perm (pool ++ (r.blocks ++ others)) := after.append_left _
    List.Perm _ (s.store.pool ++ (s.store.set n).blocks ++ others) := by
      rw [← List.append_assoc]; exact blocks.append_right _
    List.Perm _ (s.store.pool ++ (s.store.sets.toList.map SetRecord.blocks).flatten) := by
      rw [List.append_assoc]; exact before.symm.append_left _

/-! ### The requests to the store -/

section
variable {s : State} (h : StoreOk s) (n : SetIx)
include h

theorem psetOpen_storeOk (format : Nat) : StoreOk (psetOpen format n s).1 := by
  unfold psetOpen
  split
  · exact h
  · refine h.replace n rfl ?_ (returnBlocks_pairwise_lt h.rising (h.nodup_pool_blocks n)) (by simp) (by simp) (by simp) (by simp)
      h.memory
    simpa using returnBlocks_perm _ _

theorem psetDrop_storeOk : StoreOk (psetDrop n s).1 := by
  unfold psetDrop
  split
  · exact h
  · split
    · exact h
    · refine h.replace n (r := SetRecord.reset) rfl ?_ (returnBlocks_pairwise_lt h.rising (h.nodup_pool_blocks n)) rfl
        (by simp [SetRecord.reset]) rfl (fun _ => ⟨rfl, rfl⟩) h.memory
      simpa [SetRecord.reset] using returnBlocks_perm _ _

theorem psetWrite_storeOk (bytes : Bytes) : StoreOk (psetWrite bytes n s).1 := by
  by_cases opened : (s.store.set n).state = .opened
  case neg => rw [psetWrite_of_notOpen bytes opened]; exact h
  by_cases fits : (s.store.set n).length + bytes.length ≤ 4096
  case neg => rw [psetWrite_of_tooLong bytes opened (by omega)]; exact h
  by_cases space : (s.store.set n).blocksNeeded bytes ≤ s.store.pool.length
  case neg => rw [psetWrite_of_noSpace bytes opened fits (by omega)]; exact h
  rw [psetWrite_of_fits bytes opened fits space]
  refine h.replace n (r := s.store.writtenRecord n bytes) (s.store.writeSet_eq n bytes) ?_ (h.rising.drop) ?_ fits ?_ ?_
    (memoryWf_placeBytes _ _ _ h.memory)
  · calc s.store.pool.drop _ ++ ((s.store.set n).blocks ++ s.store.pool.take ((s.store.set n).blocksNeeded bytes))
        |>.Perm (s.store.pool.drop _ ++ (s.store.pool.take ((s.store.set n).blocksNeeded bytes) ++ (s.store.set n).blocks)) :=
          List.perm_append_comm.append_left _
      List.Perm _ (s.store.pool ++ (s.store.set n).blocks) := by
        rw [← List.append_assoc]
        refine List.Perm.append_right _ ?_
        exact List.perm_append_comm.trans (by rw [List.take_append_drop])
  · have list := h.lists n
    have taken : (s.store.pool.take ((s.store.set n).blocksNeeded bytes)).length = (s.store.set n).blocksNeeded bytes := by
      simpa using space
    have both : (s.store.writtenRecord n bytes).blocks.length
        = (s.store.set n).blocks.length + (s.store.set n).blocksNeeded bytes := by
      rw [Store.writtenRecord, List.length_append, taken]
    have length : (s.store.writtenRecord n bytes).length = (s.store.set n).length + bytes.length := rfl
    rw [both, length, SetRecord.blocksNeeded, blocksFor, list]
    omega
  · simp [Store.writtenRecord, opened]
  · simp [Store.writtenRecord, opened]

theorem psetClose_storeOk : StoreOk (psetClose n s).1 := by
  unfold psetClose
  split
  · exact h
  · next opened =>
    have closed : StoreOk (modStore (Store.closeSet n) s) := by
      refine h.replace n rfl (.refl _) h.rising (h.lists n) (h.lengths n) (by simp) (by simp) h.memory
    exact closed.evolves (.forList _ _ (fun i _ => .runMatching i) (.refl _))

end

theorem clearPins_unpinned (st : Store) (n : SetIx) : (st.clearPins.set n).unpinned = (st.set n).unpinned := by
  simp [Store.clearPins, Store.set, SetRecord.unpinned]

/-- R33, R36: the examination of the presence lines. -/
theorem examineLines_evolves (s : State) : Evolves s (examineLines s) := by
  unfold examineLines
  exact .eachSlot _ (fun i _ => .examineLine i) (.refl s)

theorem resetBlocks_storeOk {s : State} (h : StoreOk s) : StoreOk (examineLines (resetBlocks s)) := by
  have cleared : StoreOk (resetBlocks s) := h.congr rfl rfl (clearPins_unpinned s.store)
  exact cleared.evolves (examineLines_evolves _)

theorem performSegReset_storeOk (r : Request) {s : State} (h : StoreOk s) : StoreOk (performSegReset r s).1 := by
  unfold performSegReset
  rcases segmentRequest_cases r (exactly 0) (fun s => (examineLines (resetBlocks s), done .none)) s with e | e
  · rw [e]; exact h
  · rw [e]
    dsimp only
    exact resetBlocks_storeOk h

/-- Every request keeps the store. -/
theorem perform_storeOk (r : Request) {s : State} (h : StoreOk s) : StoreOk (perform r s).1 := by
  have e := Evolves.refl s
  unfold perform
  match requestName r.code with
  | none => exact h
  | some .segIdent | some .psetList | some .mapRead => exact segmentRequest_keeps h h
  | some .expRead | some .slotRead => exact slotRequest_keeps h fun _ => h
  | some .segCycle =>
    refine segmentRequest_keeps h ?_
    unfold segCycle
    split
    · exact h
    · exact (h.of_store_eq (t := modTrunk _ s) rfl).evolves (.recheckAll (.refl _))
  | some .segBudget =>
    refine segmentRequest_keeps h ?_
    unfold segBudget
    split
    · exact h
    · refine (h.of_store_eq (t := modRack (fun p => { p with budget := numAt16 r.payload 0 }) s) rfl).evolves ?_
      simp (maxDischargeDepth := 12) [setBudget, Evolves.refl]
  | some .segAttn => exact segmentRequest_keeps h (h.of_store_eq rfl)
  | some .segReset => exact performSegReset_storeOk r h
  | some .expLoad =>
    refine slotRequest_keeps h fun i => ?_
    unfold expLoad
    split
    · exact h
    · split
      · exact h
      · exact (h.of_store_eq (t := setExpected i _ s) rfl).evolves (actOnLoad_evolves i _ _)
  | some .expClear =>
    refine slotRequest_keeps h fun i => ?_
    unfold expClear
    split
    · exact h
    · split
      · exact h
      · exact (h.of_store_eq (t := setExpected i _ s) rfl).evolves (actOnClear_evolves i _)
  | some .psetOpen => exact setRequest_keeps h fun n => psetOpen_storeOk h n _
  | some .psetWrite => exact setRequest_keeps h fun n => psetWrite_storeOk h n _
  | some .psetClose => exact setRequest_keeps h fun n => psetClose_storeOk h n
  | some .psetDrop => exact setRequest_keeps h fun n => psetDrop_storeOk h n
  | some .psetRead => exact setRequest_keeps h fun n => by rw [psetRead_fst]; exact h
  | some .slotHold => exact slotRequest_keeps h fun _ => h.of_store_eq rfl
  | some .slotRelease =>
    refine slotRequest_keeps h fun i => h.evolves ?_
    unfold release
    dsimp only
    split
    · split <;> simp [e]
    · simp [e]
    · simp [e]
  | some .slotRestart =>
    refine slotRequest_keeps h fun i => ?_
    unfold slotRestart
    split
    · exact h
    · exact h.evolves (.withReleases i _ (fun u hu => by simp (maxDischargeDepth := 12) [restartSettling, hu]) e)
  | some .slotWithdraw =>
    refine slotRequest_keeps h fun i => ?_
    unfold slotWithdraw withdraw
    split
    · exact h
    · dsimp only
      split
      case h_5 => exact h.evolves (.enterDraining i _ e)
      case h_6 => exact h.evolves (.modCtx i _ e)
      case h_7 => exact h.evolves (.enterWithdrawn i _ e)
      case h_8 => exact h.evolves (.withReleases i _ (fun _ hu => .enterWithdrawn i _ hu) e)
      all_goals exact h
  | some .evtRead =>
    refine segmentRequest_keeps h ?_
    unfold evtRead
    split
    · exact h
    · exact h.of_store_eq rfl

/-! ### Every command -/

theorem executeHead_storeOk {s : State} (h : StoreOk s) : StoreOk (executeHead s) := by
  unfold executeHead
  split
  · exact h
  · split
    · exact (perform_storeOk _ h).of_store_eq rfl
    · exact h

theorem arrive_storeOk (r : Request) {s : State} (h : StoreOk s) : StoreOk (arrive r s) := by
  have joined : StoreOk (joinQueue r s) := h.of_store_eq rfl
  unfold arrive
  refine StoreOk.evolves ?_ (.kick (.refl _))
  split
  · split
    · exact executeHead_storeOk joined
    · exact joined
  · exact h.of_store_eq rfl

theorem takeFrame_storeOk (bs : Bytes) {s : State} (h : StoreOk s) : StoreOk (takeFrame bs s) := by
  unfold takeFrame
  dsimp only
  split
  · exact h.evolves (takeCycleFrame_evolves _ s)
  · unfold takeServiceFrame
    split
    · exact h
    · exact arrive_storeOk _ h
  · exact h

theorem responseSent_storeOk {s : State} (h : StoreOk s) : StoreOk (responseSent s) := by
  unfold responseSent
  split
  · exact executeHead_storeOk (h.of_store_eq rfl)
  · exact h.of_store_eq rfl
  · exact h

theorem returnSent_storeOk {s : State} (h : StoreOk s) : StoreOk (returnSent s) := by
  unfold returnSent
  split
  · exact h.of_store_eq rfl
  all_goals exact h

/-- At power-on every block is in the pool. -/
theorem reset_storeOk : StoreOk State.reset := by
  have set : ∀ n, State.reset.store.set n = SetRecord.reset := fun n => by simp [Store.set, State.reset]
  have held : (State.reset.store.sets.toList.map SetRecord.blocks).flatten = [] := by
    simp [State.reset, Vector.toList_replicate, SetRecord.reset]
  have pool : State.reset.store.pool = List.range 256 := by simp only [State.reset]
  refine ⟨?_, pool ▸ List.pairwise_lt_range, fun n => ?_, fun n => ?_, fun n => ?_, fun n => ?_, rfl⟩
  · rw [held, pool, List.append_nil]
  all_goals simp [set, SetRecord.reset]

theorem powerOn_storeOk (s : State) : StoreOk (powerOn s) := by
  unfold powerOn
  generalize hu : ({ State.reset with slots := _, choices := _, pending := _ } : State) = u
  have blank : StoreOk u := reset_storeOk.of_store_eq (by rw [← hu])
  exact blank.evolves (examineLines_evolves u)

/-- Settles O58: events change nothing but pins, and each request to the store trades the blocks of one set with the pool. -/
theorem everyStepKeepsTheStore : Obligations.EveryStepKeepsTheStore := by
  unfold Obligations.EveryStepKeepsTheStore
  intro s t h e
  refine step_keeps (P := StoreOk) (fun s rest h => h.of_store_eq rfl) (fun c s h => ?_) h e
  have r := Evolves.refl s
  exact exec_induction (powerOn_storeOk s) (fun r => arrive_storeOk r h) (fun bs => takeFrame_storeOk bs h)
    (h.evolves (.lossExpired r)) (h.evolves (.tickExpired r)) (h.evolves (.gapEnds r)) (returnSent_storeOk h)
    (responseSent_storeOk h) (fun i f event => h.evolves (event.evolves s)) c

end Sys2Proof.Machine
end

section
/-! SUPPORT. The power account and the window map slot by slot (R3, R41, R45, R47, R158, R163, R164): what holds of a slot by itself,
what of the slots together, and how a change at one slot is put into the whole. -/

namespace Sys2Proof.Machine

/-! ### Sending, field by field -/

@[simp] theorem send_ctx (i j : SlotIx) (x : NextSend) (s : State) : (send i x s).ctx j = s.ctx j :=
  (Beside.send_frame i x s).2.2.2.2.2.1 j
@[simp] theorem send_map (i j : SlotIx) (x : NextSend) (s : State) : (send i x s).map j = s.map j :=
  (Beside.send_frame i x s).2.2.2.2.2.2.1 j
@[simp] theorem send_slotPower (i j : SlotIx) (x : NextSend) (s : State) : (send i x s).slotPower j = s.slotPower j :=
  (Beside.send_frame i x s).2.2.2.2.2.2.2.1 j
@[simp] theorem send_expected (i j : SlotIx) (x : NextSend) (s : State) : (send i x s).expected j = s.expected j :=
  (Beside.send_frame i x s).2.2.2.2.2.2.2.2.1 j
theorem send_slot_ne {i j : SlotIx} (x : NextSend) (s : State) (h : j ≠ i) : (send i x s).slot j = s.slot j :=
  (Beside.send_frame i x s).2.2.2.2.2.2.2.2.2 j h
@[simp] theorem send_power (i : SlotIx) (x : NextSend) (s : State) : (send i x s).power = s.power :=
  (Beside.send_frame i x s).1
@[simp] theorem send_trunk (i : SlotIx) (x : NextSend) (s : State) : (send i x s).trunk = s.trunk :=
  (Beside.send_frame i x s).2.1
@[simp] theorem send_store (i : SlotIx) (x : NextSend) (s : State) : (send i x s).store = s.store :=
  (Beside.send_frame i x s).2.2.1
@[simp] theorem send_retained (i : SlotIx) (x : NextSend) (s : State) : (send i x s).retained = s.retained :=
  (Beside.send_frame i x s).2.2.2.1
@[simp] theorem send_events (i : SlotIx) (x : NextSend) (s : State) : (send i x s).events = s.events :=
  (Beside.send_frame i x s).2.2.2.2.1

/-! ### Posting, field by field -/

@[simp] theorem post_power (o : Option SlotIx) (b : EventBody) (s : State) : (post o b s).power = s.power := rfl
@[simp] theorem post_trunk (o : Option SlotIx) (b : EventBody) (s : State) : (post o b s).trunk = s.trunk := rfl
@[simp] theorem post_slot (o : Option SlotIx) (b : EventBody) (s : State) (i : SlotIx) : (post o b s).slot i = s.slot i := rfl
@[simp] theorem post_ctx (o : Option SlotIx) (b : EventBody) (s : State) (i : SlotIx) : (post o b s).ctx i = s.ctx i := rfl
@[simp] theorem post_link (o : Option SlotIx) (b : EventBody) (s : State) (i : SlotIx) : (post o b s).link i = s.link i := rfl
@[simp] theorem post_map (o : Option SlotIx) (b : EventBody) (s : State) (i : SlotIx) : (post o b s).map i = s.map i := rfl
@[simp] theorem post_slotPower (o : Option SlotIx) (b : EventBody) (s : State) (i : SlotIx) :
    (post o b s).slotPower i = s.slotPower i := rfl
@[simp] theorem post_expected (o : Option SlotIx) (b : EventBody) (s : State) (i : SlotIx) :
    (post o b s).expected i = s.expected i := rfl
@[simp] theorem post_store (o : Option SlotIx) (b : EventBody) (s : State) : (post o b s).store = s.store := rfl
@[simp] theorem post_retained (o : Option SlotIx) (b : EventBody) (s : State) : (post o b s).retained = s.retained := rfl
@[simp] theorem post_requests (o : Option SlotIx) (b : EventBody) (s : State) : (post o b s).requests = s.requests := rfl

/-! ### One slot -/

/-- R45: the stages and increases of a slot's entries in the power-up queue. -/
def entriesIn (q : List PowerEntry) (i : SlotIx) : List (Stage × Nat) :=
  (q.filter fun e => decide (e.slot = i)).map fun e => (e.stage, e.increase)

/-- What PowerOk says of slot `i` by itself. -/
structure PowerAt (i : SlotIx) (s : State) : Prop where
  switches : ∀ b, (s.ctx i).state.powered = some b → (s.slotPower i).switchOn = b
  draws : (s.ctx i).heldDraw = if (s.slotPower i).switchOn then (s.ctx i).draw else 0
  entries : entriesIn s.power.queue i = (s.ctx i).entry
  owner : s.power.owner = some i ↔ (s.ctx i).state.inrush = true
  deadline : ((s.slotPower i).deadlineTimer.isSome ∨ (s.slotPower i).minimumTimer.isSome) → (s.ctx i).state = .standbyInrush
  good : (s.slotPower i).goodSeen = true → (s.ctx i).state = .standbyInrush
  runPhase : (s.slotPower i).runPhaseTimer.isSome → (s.ctx i).state = .runInrush
  drains : (s.ctx i).state = .draining → (s.ctx i).reason = some .linkLost → (s.slotPower i).switchOn = true

/-- What MapOk says of the windows of slot `i` and its context. -/
structure MapAt (i : SlotIx) (s : State) : Prop where
  armed : (s.map i).input.isArmed = true ↔ (s.ctx i).state = .admitPending
  live : (s.map i).input.isLive = true ↔ (s.ctx i).state = .running
  draining : (s.ctx i).state = .draining → (s.map i).input.isRetiring = true
  starting : (s.ctx i).state = .starting → (s.map i).input = .vacant

/-- Slot `i` is in order: its power, and where `m` asks for it the windows. -/
structure RightAt (m : Prop) (i : SlotIx) (s : State) : Prop where
  power : PowerAt i s
  map : m → MapAt i s

/-! ### The slots together -/

/-- The current held by all the slots. -/
def State.heldTotal (s : State) : Nat := (allSlots.map fun j => (s.ctx j).heldDraw).sum

/-- What MapOk says of the windows by themselves. -/
structure WindowsOk (s : State) : Prop where
  paired : ∀ i, (s.map i).paired
  inOutput : ∀ i w, (s.map i).output.claimed = some w → w.offset + w.length ≤ s.trunk.outLength
  inInput : ∀ i w, (s.map i).input.claimed = some w → w.offset + w.length ≤ s.trunk.inLength
  apart : ∀ i j v w k, i ≠ j → (s.map i).input.claimed = some v → (s.map j).input.claimed = some w →
    ¬ ((v.offset ≤ k ∧ k < v.offset + v.length) ∧ (w.offset ≤ k ∧ k < w.offset + w.length))

/-- Every slot but the one at which a command is at work is in order, committed power is what the slots hold, and where `m` asks for it
the windows are in order. -/
structure Sound (m : Prop) (busy : Option SlotIx) (s : State) : Prop where
  slots : ∀ j, busy ≠ some j → RightAt m j s
  committed : s.power.committed = s.heldTotal
  windows : m → WindowsOk s

theorem PowerOk.sound {s : State} (h : PowerOk s) : Sound False none s :=
  ⟨fun j _ => ⟨⟨h.switches j, h.draws j, h.entries j, h.owner j, h.deadline j, h.good j, h.runPhase j, h.drains j⟩, False.elim⟩,
    h.committed, False.elim⟩

theorem MapOk.sound {s : State} (h : MapOk s) (p : PowerOk s) : Sound True none s :=
  ⟨fun j hj => ⟨(p.sound.slots j hj).power, fun _ => ⟨h.armed j, h.live j, h.draining j, h.starting j⟩⟩, p.committed,
    fun _ => ⟨h.paired, h.inOutput, h.inInput, h.apart⟩⟩

theorem Sound.at {m : Prop} {s : State} (h : Sound m none s) (i : SlotIx) : RightAt m i s := h.slots i nofun

theorem Sound.powerOk {m : Prop} {s : State} (h : Sound m none s) : PowerOk s :=
  ⟨fun i => (h.at i).power.switches, fun i => (h.at i).power.draws, h.committed, fun i => (h.at i).power.entries,
    fun i => (h.at i).power.owner, fun i => (h.at i).power.deadline, fun i => (h.at i).power.good,
    fun i => (h.at i).power.runPhase, fun i => (h.at i).power.drains⟩

theorem Sound.mapOk {m : Prop} {s : State} (h : Sound m none s) (hm : m) : MapOk s :=
  have w := h.windows hm
  ⟨w.paired, fun i => ((h.at i).map hm).armed, fun i => ((h.at i).map hm).live, fun i => ((h.at i).map hm).draining,
    fun i => ((h.at i).map hm).starting, w.inOutput, w.inInput, w.apart⟩

theorem Sound.except {m : Prop} {s : State} (h : Sound m none s) (i : SlotIx) : Sound m (some i) s :=
  ⟨fun j _ => h.at j, h.committed, h.windows⟩

theorem Sound.restore {m : Prop} {s : State} {i : SlotIx} (h : Sound m (some i) s) (r : RightAt m i s) : Sound m none s :=
  ⟨fun j _ => if e : j = i then e ▸ r else h.slots j fun e' => e (Option.some.inj e').symm, h.committed, h.windows⟩

/-! ### Powers of a slot by the class of its state (01, STATES) -/

/-- R38, R39: no inrush timer runs and no power-good is remembered. -/
structure SlotPower.Still (p : SlotPower) : Prop where
  deadline : p.deadlineTimer = none
  minimum : p.minimumTimer = none
  good : p.goodSeen = false
  runPhase : p.runPhaseTimer = none

section
variable {i : SlotIx} {s : State}

theorem PowerAt.still (h : PowerAt i s) (standby : (s.ctx i).state ≠ .standbyInrush) (run : (s.ctx i).state ≠ .runInrush) :
    (s.slotPower i).Still where
  deadline := by by_contra c; exact standby (h.deadline (.inl (Option.isSome_iff_ne_none.2 c)))
  minimum := by by_contra c; exact standby (h.deadline (.inr (Option.isSome_iff_ne_none.2 c)))
  good := by by_contra c; exact standby (h.good (by simpa using c))
  runPhase := by by_contra c; exact run (h.runPhase (Option.isSome_iff_ne_none.2 c))

/-- A slot whose switch is off in a state that has it off. -/
theorem PowerAt.of_off (state : (s.ctx i).state.powered = some false) (off : (s.slotPower i).switchOn = false)
    (still : (s.slotPower i).Still) (held : (s.ctx i).heldDraw = 0) (entries : entriesIn s.power.queue i = (s.ctx i).entry)
    (owner : s.power.owner ≠ some i) : PowerAt i s := by
  have inrush : (s.ctx i).state.inrush = false := by revert state; cases (s.ctx i).state <;> decide
  have draining : (s.ctx i).state ≠ .draining := by rintro e; rw [e] at state; cases state
  refine ⟨fun b hb => ?_, by simp [held, off], entries, by simp [owner, inrush], ?_, by simp [still.good],
    by simp [still.runPhase], fun e => absurd e draining⟩
  · rw [state] at hb; rw [off]; exact Option.some.inj hb
  · simp [still.deadline, still.minimum]

/-- A slot whose switch is on in a state that has it on and is no inrush state. -/
theorem PowerAt.of_on (state : (s.ctx i).state.powered = some true) (inrush : (s.ctx i).state.inrush = false)
    (on : (s.slotPower i).switchOn = true) (still : (s.slotPower i).Still) (held : (s.ctx i).heldDraw = (s.ctx i).draw)
    (entries : entriesIn s.power.queue i = (s.ctx i).entry) (owner : s.power.owner ≠ some i) : PowerAt i s := by
  have draining : (s.ctx i).state ≠ .draining := by rintro e; rw [e] at state; cases state
  refine ⟨fun b hb => ?_, by simp [held, on], entries, by simp [owner, inrush], ?_, by simp [still.good],
    by simp [still.runPhase], fun e => absurd e draining⟩
  · rw [state] at hb; rw [on]; exact Option.some.inj hb
  · simp [still.deadline, still.minimum]

theorem PowerAt.of_draining (state : (s.ctx i).state = .draining) (still : (s.slotPower i).Still)
    (held : (s.ctx i).heldDraw = if (s.slotPower i).switchOn then (s.ctx i).draw else 0)
    (entries : entriesIn s.power.queue i = []) (owner : s.power.owner ≠ some i)
    (lost : (s.ctx i).reason = some .linkLost → (s.slotPower i).switchOn = true) : PowerAt i s := by
  refine ⟨fun b hb => ?_, held, ?_, by simp [owner, state, CtxState.inrush], ?_, by simp [still.good],
    by simp [still.runPhase], fun _ => lost⟩
  · rw [state] at hb; cases hb
  · simp [entries, Context.entry, state]
  · simp [still.deadline, still.minimum]

/-- A switch that is off holds nothing, whatever state the slot is in. -/
theorem PowerAt.off (h : PowerAt i s) (off : (s.slotPower i).switchOn = false) :
    (s.slotPower i).Still ∧ (s.ctx i).heldDraw = 0 ∧ s.power.owner ≠ some i := by
  have inrush : (s.ctx i).state.inrush = false := by
    have := h.switches true
    revert this
    cases (s.ctx i).state <;> simp [CtxState.inrush, CtxState.powered, off]
  have state : ∀ x : CtxState, x.inrush = true → (s.ctx i).state ≠ x := by
    rintro x hx e; rw [e, hx] at inrush; cases inrush
  refine ⟨h.still (state _ rfl) (state _ rfl), by rw [h.draws, off]; rfl, fun e => ?_⟩
  rw [h.owner, inrush] at e
  cases e

/-- A switch that is on has at least the standby draw held for it. -/
theorem PowerAt.held_ge (h : PowerAt i s) (on : (s.slotPower i).switchOn = true) : 150 ≤ (s.ctx i).heldDraw := by
  have e := h.draws
  have off := h.switches false
  revert e off
  rw [on, if_pos rfl, Context.draw]
  cases (s.ctx i).state <;> simp [CtxState.powered] <;> omega

end

/-! ### A change at one slot -/

/-- From `s` to `t` only slot `i` has changed; committed power follows the draws, and the windows stay in order. -/
structure Touches (i : SlotIx) (s t : State) : Prop where
  others : ∀ j, j ≠ i → t.slot j = s.slot j
  entries : ∀ j, j ≠ i → entriesIn t.power.queue j = entriesIn s.power.queue j
  owner : ∀ j, j ≠ i → (t.power.owner = some j ↔ s.power.owner = some j)
  committed : s.power.committed = s.heldTotal → t.power.committed = t.heldTotal
  windows : WindowsOk s → WindowsOk t

/-- From `s` to `t` slot `i` stands as far as its power and its windows are concerned. -/
structure Neutral (i : SlotIx) (s t : State) : Prop where
  touches : Touches i s t
  state : (t.ctx i).state = (s.ctx i).state
  reason : (t.ctx i).reason = (s.ctx i).reason
  held : (t.ctx i).heldDraw = (s.ctx i).heldDraw
  identity : (t.ctx i).identity = (s.ctx i).identity
  power : t.slotPower i = s.slotPower i
  input : (t.map i).input = (s.map i).input
  rack : t.power = s.power

section
variable {m : Prop} {busy : Option SlotIx} {i : SlotIx} {s t u : State}

theorem Touches.refl (i : SlotIx) (s : State) : Touches i s s := ⟨fun _ _ => rfl, fun _ _ => rfl, fun _ _ => .rfl, id, id⟩

theorem Touches.trans (a : Touches i s t) (b : Touches i t u) : Touches i s u :=
  ⟨fun j h => (b.others j h).trans (a.others j h), fun j h => (b.entries j h).trans (a.entries j h),
    fun j h => (b.owner j h).trans (a.owner j h), fun h => b.committed (a.committed h), fun h => b.windows (a.windows h)⟩

theorem Neutral.refl (i : SlotIx) (s : State) : Neutral i s s := ⟨.refl i s, rfl, rfl, rfl, rfl, rfl, rfl, rfl⟩

theorem Neutral.trans (a : Neutral i s t) (b : Neutral i t u) : Neutral i s u :=
  ⟨a.touches.trans b.touches, b.state.trans a.state, b.reason.trans a.reason, b.held.trans a.held, b.identity.trans a.identity,
    b.power.trans a.power, b.input.trans a.input, b.rack.trans a.rack⟩

theorem Touches.right_other (a : Touches i s t) {j : SlotIx} (hj : j ≠ i) (h : RightAt m j s) : RightAt m j t := by
  have c : t.ctx j = s.ctx j := congrArg Slot.ctx (a.others j hj)
  have p : t.slotPower j = s.slotPower j := congrArg Slot.power (a.others j hj)
  have w : t.map j = s.map j := congrArg Slot.map (a.others j hj)
  obtain ⟨⟨h₁, h₂, h₃, h₄, h₅, h₆, h₇, h₈⟩, hm⟩ := h
  constructor
  · constructor
    · rwa [c, p]
    · rwa [c, p]
    · rwa [a.entries j hj, c]
    · rwa [a.owner j hj, c]
    · rwa [c, p]
    · rwa [c, p]
    · rwa [c, p]
    · rwa [c, p]
  · intro hm'
    obtain ⟨w₁, w₂, w₃, w₄⟩ := hm hm'
    constructor <;> rw [c, w] <;> assumption

theorem Neutral.right (a : Neutral i s t) (h : RightAt m i s) : RightAt m i t := by
  obtain ⟨⟨h₁, h₂, h₃, h₄, h₅, h₆, h₇, h₈⟩, hm⟩ := h
  have draw : (t.ctx i).draw = (s.ctx i).draw := by simp only [Context.draw, a.state, a.identity]
  have entry : (t.ctx i).entry = (s.ctx i).entry := by simp only [Context.entry, a.state, a.identity]
  constructor
  · constructor
    · rwa [a.state, a.power]
    · rwa [a.held, a.power, draw]
    · rwa [a.rack, entry]
    · rwa [a.rack, a.state]
    · rwa [a.state, a.power]
    · rwa [a.state, a.power]
    · rwa [a.state, a.power]
    · rwa [a.state, a.reason, a.power]
  · intro hm'
    obtain ⟨w₁, w₂, w₃, w₄⟩ := hm hm'
    constructor <;> rw [a.state, a.input] <;> assumption

/-- A change that keeps its own slot in order keeps all in order. -/
theorem Sound.move (h : Sound m busy s) (a : Touches i s t) (r : busy ≠ some i → RightAt m i s → RightAt m i t) : Sound m busy t :=
  ⟨fun j hj => if e : j = i then e ▸ r (e ▸ hj) (h.slots i (e ▸ hj)) else a.right_other e (h.slots j hj), a.committed h.committed,
    fun hm => a.windows (h.windows hm)⟩

theorem Sound.neutral (h : Sound m busy s) (a : Neutral i s t) : Sound m busy t := h.move a.touches fun _ => a.right

/-- Work at slot `i` goes on. -/
theorem Sound.touch (h : Sound m (some i) s) (a : Touches i s t) : Sound m (some i) t := h.move a fun e => absurd rfl e

/-- Work at slot `i` ends when the slot is in order. -/
theorem Sound.finish (h : Sound m (some i) s) (a : Touches i s t) (r : RightAt m i t) : Sound m none t :=
  (h.touch a).restore r

/-- Work at a slot that ends within one change. -/
theorem Sound.put (h : Sound m none s) (a : Touches i s t) (r : RightAt m i t) : Sound m none t := (h.except i).finish a r

/-! ### The plain updates -/

/-- The held draws of all slots, when one slot's alone has changed. -/
theorem heldTotal_add (others : ∀ j, j ≠ i → t.slot j = s.slot j) :
    t.heldTotal + (s.ctx i).heldDraw = s.heldTotal + (t.ctx i).heldDraw := by
  have total : ∀ u : State, u.heldTotal = ∑ j : SlotIx, (u.ctx j).heldDraw := fun u => by
    simp [State.heldTotal, allSlots, Fin.sum_univ_succ]
  have rest : ∑ j ∈ Finset.univ.erase i, (t.ctx j).heldDraw = ∑ j ∈ Finset.univ.erase i, (s.ctx j).heldDraw :=
    Finset.sum_congr rfl fun j hj => by simp only [State.ctx, others j (Finset.ne_of_mem_erase hj)]
  rw [total, total, ← Finset.add_sum_erase _ _ (Finset.mem_univ i), rest, ← Finset.add_sum_erase _ (fun j => (s.ctx j).heldDraw)
    (Finset.mem_univ i)]
  omega

/-- Windows that are given up, or only go on under another name, stay in order. -/
theorem WindowsOk.narrow (h : WindowsOk s) (out : t.trunk.outLength = s.trunk.outLength) (inl : t.trunk.inLength = s.trunk.inLength)
    (paired : ∀ j, (s.map j).paired → (t.map j).paired)
    (output : ∀ j w, (t.map j).output.claimed = some w → (s.map j).output.claimed = some w)
    (input : ∀ j w, (t.map j).input.claimed = some w → (s.map j).input.claimed = some w) : WindowsOk t :=
  ⟨fun j => paired j (h.paired j), fun j w e => out ▸ h.inOutput j w (output j w e), fun j w e => inl ▸ h.inInput j w (input j w e),
    fun a b v w k hab ha hb => h.apart a b v w k hab (input a v ha) (input b w hb)⟩

/-- A change of one slot's windows. -/
structure SlotMap.Narrows (x y : SlotMap) : Prop where
  paired : x.paired → y.paired
  output : ∀ w, y.output.claimed = some w → x.output.claimed = some w
  input : ∀ w, y.input.claimed = some w → x.input.claimed = some w

theorem SlotMap.Narrows.refl (x : SlotMap) : x.Narrows x := ⟨id, fun _ => id, fun _ => id⟩

/-- A change at one slot that leaves the power block, when what the slot holds stands and its windows are at most given up. -/
theorem Touches.of_slot (others : ∀ j, j ≠ i → t.slot j = s.slot j) (power : t.power = s.power)
    (out : t.trunk.outLength = s.trunk.outLength) (inl : t.trunk.inLength = s.trunk.inLength)
    (held : (t.ctx i).heldDraw = (s.ctx i).heldDraw) (map : (s.map i).Narrows (t.map i)) : Touches i s t := by
  have each : ∀ P : SlotMap → SlotMap → Prop, P (s.map i) (t.map i) → (∀ x, P x x) → ∀ j, P (s.map j) (t.map j) := by
    intro P hi hr j
    by_cases e : j = i
    · exact e ▸ hi
    · rw [State.map, State.map, others j e]; exact hr _
  refine ⟨others, fun _ _ => by rw [power], fun _ _ => by rw [power], fun c => ?_, fun h => h.narrow out inl
    (each (fun x y => x.paired → y.paired) map.paired fun _ => id)
    (each (fun x y => ∀ w, y.output.claimed = some w → x.output.claimed = some w) map.output fun _ _ => id)
    (each (fun x y => ∀ w, y.input.claimed = some w → x.input.claimed = some w) map.input fun _ _ => id)⟩
  have := heldTotal_add others
  rw [power]
  omega

theorem Touches.modCtx (f : Context → Context) (held : (f (s.ctx i)).heldDraw = (s.ctx i).heldDraw) : Touches i s (modCtx i f s) :=
  .of_slot (fun _ h => modCtx_slot_ne f s h) rfl rfl rfl (by simp [held]) (by simp [SlotMap.Narrows.refl])

theorem Touches.modPower (f : SlotPower → SlotPower) : Touches i s (modPower i f s) :=
  .of_slot (fun _ h => modPower_slot_ne f s h) rfl rfl rfl (by simp) (by simp [SlotMap.Narrows.refl])

theorem Touches.modMap (f : SlotMap → SlotMap) (h : (s.map i).Narrows (f (s.map i))) : Touches i s (modMap i f s) :=
  .of_slot (fun _ h => modMap_slot_ne f s h) rfl rfl rfl (by simp) (by simpa using h)

theorem Neutral.modCtx (f : Context → Context) (state : (f (s.ctx i)).state = (s.ctx i).state)
    (reason : (f (s.ctx i)).reason = (s.ctx i).reason) (held : (f (s.ctx i)).heldDraw = (s.ctx i).heldDraw)
    (identity : (f (s.ctx i)).identity = (s.ctx i).identity) : Neutral i s (modCtx i f s) :=
  ⟨.modCtx f held, by simp [state], by simp [reason], by simp [held], by simp [identity], by simp, by simp, rfl⟩

theorem Neutral.modLink (f : LinkEngine → LinkEngine) : Neutral i s (modLink i f s) :=
  ⟨.of_slot (fun _ h => modLink_slot_ne f s h) rfl rfl rfl (by simp) (by simp [SlotMap.Narrows.refl]), by simp, by simp, by simp,
    by simp, by simp, by simp, rfl⟩

theorem Neutral.send (x : NextSend) : Neutral i s (send i x s) :=
  ⟨.of_slot (fun _ h => send_slot_ne x s h) (by simp) (by simp) (by simp) (by simp) (by simp [SlotMap.Narrows.refl]), by simp, by simp,
    by simp, by simp, by simp, by simp, by simp⟩

/-- What touches no slot, no power and neither image length. -/
theorem Neutral.of_same (slots : ∀ j, t.slot j = s.slot j) (power : t.power = s.power)
    (out : t.trunk.outLength = s.trunk.outLength) (inl : t.trunk.inLength = s.trunk.inLength) : Neutral i s t := by
  have c : t.ctx i = s.ctx i := congrArg Slot.ctx (slots i)
  have p : t.slotPower i = s.slotPower i := congrArg Slot.power (slots i)
  have w : t.map i = s.map i := congrArg Slot.map (slots i)
  exact ⟨.of_slot (fun j _ => slots j) power out inl (by rw [c]) (by rw [w]; exact .refl _), by rw [c], by rw [c], by rw [c], by rw [c], p,
    by rw [w], power⟩

theorem Neutral.post (o : Option SlotIx) (b : EventBody) : Neutral i s (post o b s) := .of_same (fun _ => rfl) rfl rfl rfl

theorem Neutral.modStore (f : Store → Store) : Neutral i s (modStore f s) := .of_same (fun _ => rfl) rfl rfl rfl

theorem Neutral.setExpected (r : Option ExpRecord) : Neutral i s (setExpected i r s) :=
  ⟨.of_slot (fun _ h => setExpected_slot_ne r s h) rfl rfl rfl (by simp) (by simp [SlotMap.Narrows.refl]), by simp, by simp, by simp,
    by simp, by simp, by simp, rfl⟩

theorem Sound.of_same (h : Sound m busy s) (slots : ∀ j, t.slot j = s.slot j) (power : t.power = s.power)
    (out : t.trunk.outLength = s.trunk.outLength) (inl : t.trunk.inLength = s.trunk.inLength) : Sound m busy t :=
  h.neutral (i := 0) (.of_same slots power out inl)

theorem Sound.choices (h : Sound m busy s) (n : Nat) : Sound m busy { s with choices := n } := h.of_same (fun _ => rfl) rfl rfl rfl

theorem Sound.post (h : Sound m busy s) (o : Option SlotIx) (b : EventBody) : Sound m busy (post o b s) :=
  h.of_same (fun _ => rfl) rfl rfl rfl

/-! ### Folds -/

theorem Sound.foldl {α : Type} {act : State → α → State} (hact : ∀ t a, Sound m busy t → Sound m busy (act t a)) (l : List α)
    (h : Sound m busy s) : Sound m busy (l.foldl act s) := by
  induction l generalizing s with
  | nil => exact h
  | cons a l ih => exact ih (hact s a h)

theorem Sound.eachSlot {act : SlotIx → State → State} (hact : ∀ i t, Sound m busy t → Sound m busy (act i t))
    (h : Sound m busy s) : Sound m busy (eachSlot act s) := h.foldl (fun t i => hact i t) _

theorem Sound.forList {act : SlotIx → State → State} (l : List SlotIx) (hact : ∀ i t, Sound m busy t → Sound m busy (act i t))
    (h : Sound m busy s) : Sound m busy (forList l act s) := (h.choices _).foldl (fun t i => hact i t) _

end

end Sys2Proof.Machine
end

section
/-! SUPPORT. What may happen beside a command at a slot, and what a slot gives up, on the power account and the windows: passes
(R46 to R49), re-checks (R14, R160), switch-off with releases (R5) and the retry (R20). -/

namespace Sys2Proof.Machine

/-! ### The power-up queue -/

theorem entriesIn_filter_same (q : List PowerEntry) (i : SlotIx) : entriesIn (q.filter fun e => decide (e.slot ≠ i)) i = [] := by
  simp only [entriesIn, List.filter_filter, List.map_eq_nil_iff, List.filter_eq_nil_iff]
  simp

theorem entriesIn_filter_ne (q : List PowerEntry) {i j : SlotIx} (h : j ≠ i) :
    entriesIn (q.filter fun e => decide (e.slot ≠ i)) j = entriesIn q j := by
  simp only [entriesIn, List.filter_filter]
  congr 1
  refine List.filter_congr fun e _ => ?_
  by_cases c : e.slot = j
  · simp [c, h]
  · simp [c]

theorem entriesIn_append (q r : List PowerEntry) (i : SlotIx) : entriesIn (q ++ r) i = entriesIn q i ++ entriesIn r i := by
  simp [entriesIn]

/-- A mark on entries leaves their stages and increases. -/
theorem entriesIn_map (q : List PowerEntry) (f : PowerEntry → PowerEntry)
    (hf : ∀ e, (f e).slot = e.slot ∧ (f e).stage = e.stage ∧ (f e).increase = e.increase) (i : SlotIx) :
    entriesIn (q.map f) i = entriesIn q i := by
  induction q with
  | nil => rfl
  | cons e q ih =>
    obtain ⟨h₁, h₂, h₃⟩ := hf e
    simp only [entriesIn, List.map_cons, List.filter_cons, h₁] at ih ⊢
    split
    · simp only [List.map_cons, h₂, h₃, ih]
    · exact ih

theorem mem_entriesIn {q : List PowerEntry} {e : PowerEntry} (h : e ∈ q) : (e.stage, e.increase) ∈ entriesIn q e.slot :=
  List.mem_map_of_mem (List.mem_filter.2 ⟨h, by simp⟩)

theorem no_entry_of_entriesIn {q : List PowerEntry} {i : SlotIx} (h : entriesIn q i = []) : ∀ e ∈ q, e.slot ≠ i := by
  rintro e he rfl
  have := mem_entriesIn he
  rw [h] at this
  cases this

section
variable {m : Prop} {busy : Option SlotIx} {i : SlotIx} {s t u : State}

theorem leaveQueue_touches (i : SlotIx) (s : State) : Touches i s (leaveQueue i s) :=
  ⟨fun _ _ => rfl, fun _ h => entriesIn_filter_ne _ h, fun _ _ => .rfl, id, fun h => h.narrow rfl rfl (fun _ => id) (fun _ _ => id)
    fun _ _ => id⟩

/-- The slot a command is at work at, through what happens beside it: it stands, with no entry and the allowance as it was. -/
structure Waits (busy : Option SlotIx) (s t : State) : Prop where
  slot : ∀ i, busy = some i → t.slot i = s.slot i
  entries : ∀ i, busy = some i → entriesIn t.power.queue i = []
  owner : ∀ i, busy = some i → (t.power.owner = some i ↔ s.power.owner = some i)

theorem Waits.refl (h : ∀ i, busy = some i → entriesIn s.power.queue i = []) : Waits busy s s := ⟨fun _ _ => rfl, h, fun _ _ => .rfl⟩

/-! ### Passes (R47 to R49) -/

theorem passOver_power (e : PowerEntry) (s : State) : ∃ q, (passOver e s).power = { s.power with queue := q }
    ∧ ∀ i, entriesIn q i = entriesIn s.power.queue i := by
  unfold passOver
  split
  · exact ⟨_, rfl, fun _ => rfl⟩
  · exact ⟨_, rfl, entriesIn_map _ _ fun e => by split <;> simp⟩

theorem passOver_slot (e : PowerEntry) (s : State) (i : SlotIx) : (passOver e s).slot i = s.slot i := by
  unfold passOver
  split <;> rfl

theorem passOver_touches (e : PowerEntry) (i : SlotIx) (s : State) : Touches i s (passOver e s) := by
  obtain ⟨q, hp, hq⟩ := passOver_power e s
  have trunk : (passOver e s).trunk = s.trunk := (Beside.passOver (checks := False) s).trunk
  have map : ∀ j, (passOver e s).map j = s.map j := (Beside.passOver (checks := False) s).map
  refine ⟨fun j _ => passOver_slot e s j, fun j _ => by rw [hp]; exact hq j, fun j _ => by rw [hp], fun c => ?_, fun h => ?_⟩
  · have held : (passOver e s).heldTotal = s.heldTotal := by simp only [State.heldTotal, State.ctx, passOver_slot]
    rw [hp, held]; exact c
  · exact h.narrow (by rw [trunk]) (by rw [trunk]) (fun j => by rw [map]; exact id) (fun j w => by rw [map]; exact id)
      (fun j w => by rw [map]; exact id)

theorem passOver_right (e : PowerEntry) (r : RightAt m i s) : RightAt m i (passOver e s) := by
  obtain ⟨q, hp, hq⟩ := passOver_power e s
  have map : (passOver e s).map i = s.map i := (Beside.passOver (checks := False) s).map i
  have c : (passOver e s).ctx i = s.ctx i := congrArg Slot.ctx (passOver_slot e s i)
  have p : (passOver e s).slotPower i = s.slotPower i := congrArg Slot.power (passOver_slot e s i)
  have queue : entriesIn (passOver e s).power.queue i = entriesIn s.power.queue i := by rw [hp]; exact hq i
  have owner : (passOver e s).power.owner = s.power.owner := by rw [hp]
  obtain ⟨⟨h₁, h₂, h₃, h₄, h₅, h₆, h₇, h₈⟩, hm⟩ := r
  refine ⟨⟨?_, ?_, ?_, ?_, ?_, ?_, ?_, ?_⟩, fun hm' => ?_⟩
  · rwa [c, p]
  · rwa [c, p]
  · rwa [queue, c]
  · rwa [owner, c]
  · rwa [c, p]
  · rwa [c, p]
  · rwa [c, p]
  · rwa [c, p]
  · obtain ⟨w₁, w₂, w₃, w₄⟩ := hm hm'
    constructor <;> rw [c, map] <;> assumption

theorem passOver_sound (e : PowerEntry) (h : Sound m busy s) : Sound m busy (passOver e s) :=
  h.move (passOver_touches e e.slot s) fun _ => passOver_right e

/-- The contexts that have an entry wait for it: its stage and increase are those of their state. -/
theorem PowerAt.waiting (h : PowerAt i s) {stage : Stage} {increase : Nat} (he : (stage, increase) ∈ entriesIn s.power.queue i) :
    entriesIn s.power.queue i = [(stage, increase)]
      ∧ (((s.ctx i).state = .standbyWait ∧ stage = .standby ∧ increase = 150)
        ∨ ((s.ctx i).state = .runWait ∧ stage = .run ∧ increase = (s.ctx i).runDraw - 150)) := by
  have entry := h.entries
  rw [entry] at he ⊢
  unfold Context.entry at he ⊢
  split at he
  · next e => obtain ⟨rfl, rfl⟩ : stage = .standby ∧ increase = 150 := by simpa using he
              exact ⟨rfl, .inl ⟨e, rfl, rfl⟩⟩
  · next e => obtain ⟨rfl, hi⟩ : stage = .run ∧ increase = (s.ctx i).runDraw - 150 := by
                simpa [Context.runDraw, Config.standbyDraw] using he
              exact ⟨by rw [hi]; simp [Context.runDraw, Config.standbyDraw], .inr ⟨e, rfl, hi⟩⟩
  · cases he

/-- R49: what a grant does to the power block. -/
theorem grant_power (e : PowerEntry) (s : State) :
    (grant e s).power = { s.power with committed := s.power.committed + e.increase, owner := some e.slot
                                       queue := s.power.queue.filter fun x => decide (x.slot ≠ e.slot) } := by
  unfold grant
  dsimp only
  split
  · rfl
  · simp [grantRun, leaveQueue]

theorem grant_trunk (e : PowerEntry) (s : State) : (grant e s).trunk = s.trunk := by
  unfold grant
  dsimp only
  split
  · rfl
  · simp [grantRun, leaveQueue]

theorem grant_map (e : PowerEntry) (s : State) (j : SlotIx) : (grant e s).map j = s.map j := by
  unfold grant
  dsimp only
  split
  · simp [grantStandby, leaveQueue]
  · simp [grantRun, leaveQueue]

theorem grant_slot_ne (e : PowerEntry) (s : State) {j : SlotIx} (h : j ≠ e.slot) : (grant e s).slot j = s.slot j := by
  unfold grant
  dsimp only
  split
  · rw [grantStandby, modCtx_slot_ne _ _ h, modPower_slot_ne _ _ h]; rfl
  · rw [grantRun, send_slot_ne _ _ h, modCtx_slot_ne _ _ h]; rfl

theorem grant_standby {e : PowerEntry} (s : State) (h : e.stage = .standby) :
    (grant e s).ctx e.slot = { s.ctx e.slot with state := .standbyInrush, reason := none, heldDraw := 150 }
      ∧ (grant e s).slotPower e.slot = { s.slotPower e.slot with
          switchOn := true, goodSeen := false, minimumTimer := some 20000000, deadlineTimer := some 50000000 } := by
  simp [grant, h, grantStandby, leaveQueue, Config.standbyDraw, Config.inrushMinimum, Config.powerGoodDeadline]

theorem grant_run {e : PowerEntry} (s : State) (h : e.stage = .run) :
    (grant e s).ctx e.slot = { s.ctx e.slot with state := .runInrush, reason := none, heldDraw := (s.ctx e.slot).runDraw }
      ∧ (grant e s).slotPower e.slot = s.slotPower e.slot := by
  simp [grant, h, grantRun, leaveQueue]

theorem runDraw_ge (c : Context) : 150 ≤ c.runDraw := by
  simp [Context.runDraw, Config.standbyDraw]

theorem grant_sound {e : PowerEntry} (h : Sound m busy s) (free : s.power.owner = none)
    (he : (e.stage, e.increase) ∈ entriesIn s.power.queue e.slot) (hb : busy ≠ some e.slot) : Sound m busy (grant e s) := by
  have r := h.slots e.slot hb
  have power := grant_power e s
  obtain ⟨-, hw⟩ := r.power.waiting he
  have waits : (s.ctx e.slot).state ≠ .standbyInrush ∧ (s.ctx e.slot).state ≠ .runInrush := by
    rcases hw with ⟨st, -⟩ | ⟨st, -⟩ <;> simp [st]
  have still := r.power.still waits.1 waits.2
  have none : entriesIn (grant e s).power.queue e.slot = [] := by rw [power]; exact entriesIn_filter_same _ _
  have owner : (grant e s).power.owner = some e.slot := by rw [power]
  have windows : WindowsOk s → WindowsOk (grant e s) := fun hw =>
    hw.narrow (by rw [grant_trunk]) (by rw [grant_trunk]) (fun j => by rw [grant_map]; exact id)
      (fun j w => by rw [grant_map]; exact id) (fun j w => by rw [grant_map]; exact id)
  have touch : ((grant e s).ctx e.slot).heldDraw = (s.ctx e.slot).heldDraw + e.increase → Touches e.slot s (grant e s) := fun held =>
    ⟨fun j hj => grant_slot_ne e s hj, fun j hj => by rw [power]; exact entriesIn_filter_ne _ hj,
      fun j hj => by rw [power, free]; simp [hj.symm],
      fun c => by
        have := heldTotal_add (i := e.slot) (t := grant e s) (s := s) fun j hj => grant_slot_ne e s hj
        rw [power]
        show s.power.committed + e.increase = _
        omega, windows⟩
  rcases hw with ⟨st, hs, hi⟩ | ⟨st, hs, hi⟩
  · obtain ⟨ctx, pow⟩ := grant_standby s hs
    have held0 : (s.ctx e.slot).heldDraw = 0 := by
      rw [r.power.draws, r.power.switches false (by rw [st]; rfl)]; rfl
    refine h.move (touch (by rw [ctx, held0, hi])) fun _ _ => ⟨?_, fun hm => ?_⟩
    · refine ⟨fun b hb => ?_, ?_, ?_, ?_, fun _ => by rw [ctx], fun _ => by rw [ctx], ?_, ?_⟩
      · rw [ctx] at hb; rw [pow]; exact Option.some.inj hb
      · rw [ctx, pow]; rfl
      · rw [none, ctx]; rfl
      · rw [owner, ctx]; simp [CtxState.inrush]
      · rw [pow]; simp [still.runPhase]
      · rw [ctx]; simp
    · obtain ⟨w₁, w₂, -, -⟩ := r.map hm
      constructor <;> rw [ctx, grant_map] <;> simp [w₁, w₂, st]
  · obtain ⟨ctx, pow⟩ := grant_run s hs
    have on := r.power.switches true (by rw [st]; rfl)
    have held150 : (s.ctx e.slot).heldDraw = 150 := by rw [r.power.draws, on, if_pos rfl, Context.draw, st]
    have ge := runDraw_ge (s.ctx e.slot)
    refine h.move (touch (by rw [ctx, held150, hi]; dsimp only; omega)) fun _ _ => ⟨?_, fun hm => ?_⟩
    · refine ⟨fun b hb => ?_, ?_, ?_, ?_, ?_, ?_, fun _ => by rw [ctx], ?_⟩
      · rw [ctx] at hb; rw [pow, on]; exact Option.some.inj hb
      · rw [ctx, pow, on]; rfl
      · rw [none, ctx]; rfl
      · rw [owner, ctx]; simp [CtxState.inrush]
      · rw [pow]; simp [still.deadline, still.minimum]
      · rw [pow]; simp [still.good]
      · rw [ctx]; simp
    · obtain ⟨w₁, w₂, -, -⟩ := r.map hm
      constructor <;> rw [ctx, grant_map] <;> simp [w₁, w₂, st]

theorem grant_waits {e : PowerEntry} (he : ∀ i, busy = some i → entriesIn s.power.queue i = []) (hb : busy ≠ some e.slot)
    (free : s.power.owner = none) : Waits busy s (grant e s) := by
  have ne : ∀ i, busy = some i → i ≠ e.slot := fun i h e' => hb (e' ▸ h)
  have power := grant_power e s
  refine ⟨fun i h => grant_slot_ne e s (ne i h), fun i h => ?_, fun i h => ?_⟩
  · rw [power]
    exact (entriesIn_filter_ne _ (ne i h)).trans (he i h)
  · rw [power, free]
    simp [(ne i h).symm]

theorem examine_sound (l : List PowerEntry) (h : Sound m busy s) (free : s.power.owner = none)
    (he : ∀ i, busy = some i → entriesIn s.power.queue i = [])
    (hl : ∀ e ∈ l, (e.stage, e.increase) ∈ entriesIn s.power.queue e.slot) :
    Sound m busy (examine l s) ∧ Waits busy s (examine l s) := by
  induction l generalizing s with
  | nil => exact ⟨h, .refl he⟩
  | cons e l ih =>
    have hb : busy ≠ some e.slot := fun c => by
      have := hl e (List.mem_cons_self ..)
      rw [he _ c] at this
      cases this
    unfold examine
    split
    · exact ⟨grant_sound h free (hl e (List.mem_cons_self ..)) hb, grant_waits he hb free⟩
    · obtain ⟨q, hp, hq⟩ := passOver_power e s
      obtain ⟨a, b⟩ := ih (s := passOver e s) (passOver_sound e h) (by rw [hp]; exact free)
        (fun i c => by rw [hp]; exact (hq i).trans (he i c))
        (fun x hx => by rw [hp]; exact (hq x.slot).symm ▸ hl x (List.mem_cons_of_mem _ hx))
      exact ⟨a, fun i c => (b.slot i c).trans (passOver_slot e s i), b.entries, fun i c => by rw [b.owner i c, hp]⟩

/-- R47: a pass keeps every slot in order, and leaves the slot a command is at work at, which has no entry, alone. -/
theorem pass_sound (h : Sound m busy s) (he : ∀ i, busy = some i → entriesIn s.power.queue i = []) :
    Sound m busy (pass s) ∧ Waits busy s (pass s) := by
  unfold pass
  split
  · exact ⟨h, .refl he⟩
  · next free =>
    exact examine_sound _ h (by simpa using free) he fun e hm => mem_entriesIn ((Beside.mem_queueOrder _ _).1 hm)

theorem Sound.pass (h : Sound m none s) : Sound m none (pass s) := (pass_sound h nofun).1

/-! ### Admission checks (R14, R159 to R161) -/

theorem not_claimed_cases (w : Window) (armed : w.isArmed = false) (live : w.isLive = false) (retiring : w.isRetiring = false) :
    w = .vacant := by
  cases w <;> simp_all [Window.isArmed, Window.isLive, Window.isRetiring]

/-- A context in READY that moves between READY and STARTING, which differ in nothing the power account knows. -/
theorem PowerAt.ready_move (h : PowerAt i s) (ready : (s.ctx i).state = .ready ∨ (s.ctx i).state = .starting)
    (state : (t.ctx i).state = .ready ∨ (t.ctx i).state = .starting) (held : (t.ctx i).heldDraw = (s.ctx i).heldDraw)
    (identity : (t.ctx i).identity = (s.ctx i).identity) (power : t.slotPower i = s.slotPower i) (rack : t.power = s.power) :
    PowerAt i t := by
  have on := h.switches true (by rcases ready with e | e <;> rw [e] <;> rfl)
  have still := h.still (by rcases ready with e | e <;> simp [e]) (by rcases ready with e | e <;> simp [e])
  refine .of_on ?_ ?_ (by rw [power]; exact on) (by rw [power]; exact still) ?_ ?_ ?_
  · rcases state with e | e <;> rw [e] <;> rfl
  · rcases state with e | e <;> rw [e] <;> rfl
  · rw [held, h.draws, on, if_pos rfl, Context.draw, Context.draw, identity]
    rcases ready with e | e <;> rcases state with e' | e' <;> rw [e, e']
  · rw [rack, h.entries, Context.entry, Context.entry]
    rcases ready with e | e <;> rcases state with e' | e' <;> rw [e, e']
  · rw [rack, Ne, h.owner]
    rcases ready with e | e <;> rw [e] <;> simp [CtxState.inrush]

/-- R159: a refused check leaves READY. -/
theorem refuseAdmission_touches (r : Refused) :
    Touches i s (refuseAdmission i r s) ∧ ((refuseAdmission i r s).ctx i) = { s.ctx i with state := .ready, reason := some r.reason }
      ∧ (refuseAdmission i r s).slotPower i = s.slotPower i ∧ (refuseAdmission i r s).map i = s.map i
      ∧ (refuseAdmission i r s).power = s.power := by
  have a : Touches i s (modCtx i (fun c => { c with state := .ready, reason := some r.reason }) s) := .modCtx _ rfl
  unfold refuseAdmission
  dsimp only
  split
  · exact ⟨a, by simp, by simp, by simp, rfl⟩
  · exact ⟨a.trans (Neutral.post _ _).touches, by simp, by simp, by simp, rfl⟩

theorem tryAdmit_sound (i : SlotIx) (h : Sound m busy s) : Sound m busy (tryAdmit i s) := by
  unfold tryAdmit
  split
  · next c =>
    obtain ⟨ready, -, own⟩ := c
    split
    · next r _ =>
      obtain ⟨a, ctx, pow, map, rack⟩ := refuseAdmission_touches (s := s) (i := i) r
      refine h.move a fun _ x => ⟨x.power.ready_move (.inl ready) (.inl (by rw [ctx])) (by rw [ctx]) (by rw [ctx]) pow rack, fun hm => ?_⟩
      obtain ⟨w₁, w₂, -, -⟩ := x.map hm
      constructor <;> rw [ctx, map] <;> simp [w₁, w₂, ready]
    · refine h.move ((Touches.modCtx _ rfl).trans (Neutral.send _).touches) fun _ x =>
        ⟨x.power.ready_move (.inl ready) (.inr (by simp)) (by simp) (by simp) (by simp) (by simp), fun hm => ?_⟩
      obtain ⟨w₁, w₂, -, -⟩ := x.map hm
      have vacant : (s.map i).input = .vacant := by
        refine not_claimed_cases _ ?_ ?_ ?_
        · simpa [ready] using w₁
        · simpa [ready] using w₂
        · simp only [State.ownRetiring, Bool.or_eq_false_iff] at own
          exact own.2
      constructor <;> simp [vacant, Window.isArmed, Window.isLive]
  · exact h

theorem recheckAll_sound (h : Sound m busy s) : Sound m busy (recheckAll s) := h.forList _ fun i _ => tryAdmit_sound i

theorem recheckIf_sound (due : Bool) (h : Sound m busy s) : Sound m busy (recheckIf due s) := by
  unfold recheckIf
  split
  · exact recheckAll_sound h
  · exact h

/-! ### A pass beside a report (R47) -/

theorem besidePass_sound (due : Bool) {report : State → State} (h : Sound m busy s)
    (he : ∀ i, busy = some i → entriesIn s.power.queue i = [])
    (hr : ∀ t, Sound m busy t → Waits busy s t → Sound m none (report t)) : Sound m none (besidePass due report s) := by
  unfold besidePass
  split
  · unfold eitherOrder
    dsimp only
    have h' := h.choices (s.choices + 1)
    split
    · obtain ⟨a, b⟩ := pass_sound h' he
      exact hr _ a ⟨b.slot, b.entries, b.owner⟩
    · exact (hr _ h' ⟨fun _ _ => rfl, he, fun _ _ => .rfl⟩).pass
  · exact hr s h (.refl he)

/-! ### The switch -/

theorem freeAllowance_touches (i : SlotIx) (s : State) : Touches i s (freeAllowance i s) := by
  refine ⟨fun _ _ => rfl, fun _ _ => rfl, fun j hj => ?_, id, fun h => h.narrow rfl rfl (fun _ => id) (fun _ _ => id) fun _ _ => id⟩
  simp only [freeAllowance, modRack_power]
  split
  · next e => simp [e, hj.symm]
  · rfl

theorem freeAllowance_owner (i : SlotIx) (s : State) : (freeAllowance i s).power.owner ≠ some i := by
  simp only [freeAllowance, modRack_power]
  split
  · simp
  · assumption

/-- R37: a switch turned off. -/
theorem switchOff_on (on : (s.slotPower i).switchOn = true) :
    (switchOff i s).ctx i = { s.ctx i with heldDraw := 0 } ∧ (switchOff i s).slotPower i = (s.slotPower i).off
      ∧ (switchOff i s).map i = s.map i ∧ (switchOff i s).link i = (s.link i).endExchange
      ∧ (switchOff i s).power.queue = s.power.queue
      ∧ (switchOff i s).power.owner ≠ some i ∧ (switchOff i s).power.committed = s.power.committed - (s.ctx i).heldDraw := by
  simp only [switchOff, on, if_true]
  refine ⟨by simp [freeAllowance], by simp [freeAllowance, SlotPower.off], by simp [freeAllowance], by simp [freeAllowance], rfl, ?_, rfl⟩
  exact freeAllowance_owner i _

/-- What may be said of a switch that is off. -/
def Off (i : SlotIx) (s : State) : Prop :=
  (s.slotPower i).switchOn = false → (s.slotPower i).Still ∧ (s.ctx i).heldDraw = 0 ∧ s.power.owner ≠ some i

theorem PowerAt.isOff (h : PowerAt i s) : Off i s := h.off

theorem switchOff_touches (i : SlotIx) (s : State) : Touches i s (switchOff i s) := by
  by_cases on : (s.slotPower i).switchOn = true
  · obtain ⟨ctx, -, map, -, queue, -, committed⟩ := switchOff_on on
    have others : ∀ j, j ≠ i → (switchOff i s).slot j = s.slot j := by
      intro j hj
      simp only [switchOff, on, if_true, modLink_slot_ne _ _ hj, modCtx_slot_ne _ _ hj, modPower_slot_ne _ _ hj]
      rfl
    have trunk : (switchOff i s).trunk = s.trunk := trunk_of_trunkSide (switchOff_trunkSide i s)
    have maps : ∀ j, (switchOff i s).map j = s.map j := fun j => by
      by_cases e : j = i
      · exact e ▸ map
      · exact congrArg Slot.map (others j e)
    refine ⟨others, fun _ _ => by rw [queue], fun j hj => ?_, fun c => ?_, fun h => h.narrow (by rw [trunk]) (by rw [trunk])
      (fun j => by rw [maps]; exact id) (fun j w => by rw [maps]; exact id) (fun j w => by rw [maps]; exact id)⟩
    · simp only [switchOff, on, if_true]
      exact (freeAllowance_touches i _).owner j hj
    · have := heldTotal_add others
      rw [ctx] at this
      rw [committed]
      dsimp only at this
      omega
  · rw [switchOff, if_neg on]
    exact .refl i s

/-- R37: a switch that is off, whether it was turned off now or before. -/
theorem switchOff_off (h : Off i s) :
    (switchOff i s).ctx i = { s.ctx i with heldDraw := 0 } ∧ (switchOff i s).slotPower i = (s.slotPower i).off
      ∧ (switchOff i s).map i = s.map i ∧ (switchOff i s).power.queue = s.power.queue
      ∧ (switchOff i s).power.owner ≠ some i := by
  by_cases on : (s.slotPower i).switchOn = true
  · obtain ⟨h₁, h₂, h₃, -, h₅, h₆, -⟩ := switchOff_on on
    exact ⟨h₁, h₂, h₃, h₅, h₆⟩
  · have off : (s.slotPower i).switchOn = false := by simpa using on
    obtain ⟨still, held, owner⟩ := h off
    rw [switchOff, if_neg on]
    refine ⟨by rw [← held], ?_, rfl, rfl, owner⟩
    obtain ⟨d, n, g, r⟩ := still
    generalize s.slotPower i = p at off d n g r
    cases p
    simp_all [SlotPower.off]

theorem still_off (p : SlotPower) : p.off.Still := ⟨rfl, rfl, rfl, rfl⟩

/-! ### Windows given up (R164, R165) -/

theorem Window.claimed_disarm (w : Window) (v : Span) (h : w.disarm.claimed = some v) : w.claimed = some v := by
  cases w <;> simp_all [Window.disarm, Window.claimed]

theorem Window.claimed_retire (w : Window) (v : Span) (h : w.retire.claimed = some v) : w.claimed = some v := by
  cases w <;> simp_all [Window.retire, Window.claimed]

theorem Window.claimed_mark (w : Window) (v : Span) (h : w.mark.claimed = some v) : w.claimed = some v := by
  cases w <;> simp_all [Window.mark, Window.claimed]

theorem Window.claimed_tick (w : Window) (v : Span) (h : w.tick.claimed = some v) : w.claimed = some v := by
  cases w <;> simp_all [Window.tick, Window.claimed]

/-- The two windows of a slot change together. -/
theorem paired_change {x : SlotMap} {f : Window → Window} (h : x.paired)
    (hf : f ∈ [Window.disarm, Window.retire, Window.mark, Window.tick]) : (x.change f).paired := by
  obtain ⟨o, n, tables, latest, reported⟩ := x
  simp only [List.mem_cons, List.not_mem_nil, or_false] at hf
  rcases hf with rfl | rfl | rfl | rfl <;> cases o <;> cases n <;>
    simp_all [SlotMap.paired, SlotMap.change, Window.disarm, Window.retire, Window.mark, Window.tick]

theorem narrows_change (x : SlotMap) {f : Window → Window} (hf : f ∈ [Window.disarm, Window.retire, Window.mark, Window.tick]) :
    x.Narrows (x.change f) := by
  refine ⟨fun h => paired_change h hf, fun v h => ?_, fun v h => ?_⟩ <;>
    simp only [List.mem_cons, List.not_mem_nil, or_false] at hf <;>
    rcases hf with rfl | rfl | rfl | rfl
  · exact Window.claimed_disarm _ v h
  · exact Window.claimed_retire _ v h
  · exact Window.claimed_mark _ v h
  · exact Window.claimed_tick _ v h
  · exact Window.claimed_disarm _ v h
  · exact Window.claimed_retire _ v h
  · exact Window.claimed_mark _ v h
  · exact Window.claimed_tick _ v h

theorem disarm_touches (i : SlotIx) (s : State) : Touches i s (disarm i s) := .modMap _ (narrows_change _ (by simp))

theorem retire_touches (i : SlotIx) (s : State) : Touches i s (retire i s) := .modMap _ (narrows_change _ (by simp))

/-! ### Switch-off with releases (R5) -/

theorem unpin_neutral (i : SlotIx) (s : State) : Neutral i s (unpin i s) := by
  unfold unpin
  split
  · exact (Neutral.modStore _).trans (.modCtx _ rfl rfl rfl rfl)
  · exact .refl i s

/-- What a slot that has given up what it held is, as far as its power and its windows are concerned. -/
structure Released (i : SlotIx) (s t : State) : Prop where
  touches : Touches i s t
  state : (t.ctx i).state = (s.ctx i).state
  reason : (t.ctx i).reason = (s.ctx i).reason
  held : (t.ctx i).heldDraw = 0
  power : t.slotPower i = (s.slotPower i).off
  input : (t.map i).input = (s.map i).input.disarm
  entries : entriesIn t.power.queue i = []
  owner : t.power.owner ≠ some i

theorem releases_released (h : Off i s) : Released i s (releases i s) := by
  obtain ⟨c₂, p₂, w₂, q₂, o₂⟩ := switchOff_off (s := leaveQueue i s) h
  let u := switchOff i (leaveQueue i s)
  have n := unpin_neutral i u
  have ctx : (releases i s).ctx i = { (unpin i u).ctx i with progress := none, walk := none, download := none } := by
    simp [releases, disarm, u]
  have rack : (releases i s).power = u.power := n.rack
  have a := (leaveQueue_touches i s).trans ((switchOff_touches i _).trans n.touches)
  refine ⟨(a.trans (Neutral.modLink _).touches).trans ((Touches.modCtx _ rfl).trans (disarm_touches i _)), ?_, ?_, ?_, ?_, ?_, ?_, ?_⟩
  · rw [ctx, n.state, c₂]; rfl
  · rw [ctx, n.reason, c₂]; rfl
  · rw [ctx, n.held, c₂]
  · rw [show (releases i s).slotPower i = (unpin i u).slotPower i by simp [releases, disarm, u], n.power, p₂]; rfl
  · rw [show (releases i s).map i = ((unpin i u).map i).change Window.disarm by simp [releases, disarm, u]]
    show ((unpin i u).map i).input.disarm = _
    rw [n.input, w₂]; rfl
  · rw [rack, q₂]
    exact entriesIn_filter_same _ _
  · rw [rack]
    exact o₂

/-- R5: switch-off with releases and what the context then does. -/
theorem withReleases_sound {finish : State → State} (h : Sound m (some i) s) (off : Off i s)
    (hf : ∀ t, (t.ctx i).state = (s.ctx i).state → (t.ctx i).reason = (s.ctx i).reason → (t.ctx i).heldDraw = 0 →
      t.slotPower i = (s.slotPower i).off → (t.map i).input = (s.map i).input.disarm → entriesIn t.power.queue i = [] →
      t.power.owner ≠ some i → Touches i t (finish t) ∧ RightAt m i (finish t)) : Sound m none (withReleases i finish s) := by
  have r := releases_released off
  refine besidePass_sound _ (h.touch r.touches) (fun j e => Option.some.inj e ▸ r.entries) fun t ht w => recheckIf_sound _ ?_
  have slot := w.slot i rfl
  have c : t.ctx i = (releases i s).ctx i := congrArg Slot.ctx slot
  have p : t.slotPower i = (releases i s).slotPower i := congrArg Slot.power slot
  have n : t.map i = (releases i s).map i := congrArg Slot.map slot
  obtain ⟨a, b⟩ := hf t (by rw [c, r.state]) (by rw [c, r.reason]) (by rw [c, r.held]) (by rw [p, r.power]) (by rw [n, r.input])
    (w.entries i rfl) (fun e => r.owner ((w.owner i rfl).1 e))
  exact ht.finish a b

end

end Sys2Proof.Machine
end

section
/-! SUPPORT. The ends of a bring-up and the retry (R5, R20 to R27), on the power account and the windows. -/

namespace Sys2Proof.Machine

/-! ### What a slot outside an inrush holds -/

/-- Outside an inrush: the switch of slot `i` is as `on` says, `d` is held for it, and `q` is its place in the power-up queue. -/
structure Holds (i : SlotIx) (on : Bool) (d : Nat) (q : List (Stage × Nat)) (s : State) : Prop where
  switch : (s.slotPower i).switchOn = on
  still : (s.slotPower i).Still
  held : (s.ctx i).heldDraw = d
  entries : entriesIn s.power.queue i = q
  owner : s.power.owner ≠ some i

/-- A window that is neither ARMED nor LIVE. -/
structure Window.Unclaimed (w : Window) : Prop where
  armed : w.isArmed = false
  live : w.isLive = false

/-- The states in which a slot holds nothing and waits for nothing. -/
def CtxState.idle : CtxState → Bool
  | .empty | .settling | .withdrawn | .faulted => true
  | _ => false

section
variable {m : Prop} {busy : Option SlotIx} {i : SlotIx} {on : Bool} {d : Nat} {q : List (Stage × Nat)} {s t u : State}

theorem Holds.congr (h : Holds i on d q s) (held : (t.ctx i).heldDraw = (s.ctx i).heldDraw) (power : t.slotPower i = s.slotPower i)
    (rack : t.power = s.power) : Holds i on d q t :=
  ⟨by rw [power]; exact h.switch, by rw [power]; exact h.still, held.trans h.held, by rw [rack]; exact h.entries,
    by rw [rack]; exact h.owner⟩

theorem PowerAt.holds (h : PowerAt i s) (standby : (s.ctx i).state ≠ .standbyInrush) (run : (s.ctx i).state ≠ .runInrush) :
    Holds i (s.slotPower i).switchOn (s.ctx i).heldDraw (s.ctx i).entry s :=
  ⟨rfl, h.still standby run, rfl, h.entries, fun e => by
    rw [h.owner] at e
    revert e standby run
    cases (s.ctx i).state <;> simp [CtxState.inrush]⟩

/-- In a state whose switch the table of states has on. -/
theorem PowerAt.holds_on (h : PowerAt i s) (on : (s.ctx i).state.powered = some true) (inrush : (s.ctx i).state.inrush = false) :
    Holds i true (s.ctx i).draw (s.ctx i).entry s := by
  have switch := h.switches true on
  have a := h.holds (fun e => by rw [e] at inrush; cases inrush) (fun e => by rw [e] at inrush; cases inrush)
  have held := h.draws
  rw [switch, if_pos rfl] at held
  rwa [switch, held] at a

theorem Holds.power_on (h : Holds i true (t.ctx i).draw (t.ctx i).entry t) (on : (t.ctx i).state.powered = some true)
    (inrush : (t.ctx i).state.inrush = false) : PowerAt i t :=
  .of_on on inrush h.switch h.still h.held h.entries h.owner

theorem Holds.power_off (h : Holds i false 0 (t.ctx i).entry t) (off : (t.ctx i).state.powered = some false) : PowerAt i t :=
  .of_off off h.switch h.still h.held h.entries h.owner

theorem MapAt.unclaimed (h : MapAt i s) (armed : (s.ctx i).state ≠ .admitPending) (run : (s.ctx i).state ≠ .running) :
    (s.map i).input.Unclaimed :=
  ⟨by simpa [armed] using h.armed, by simpa [run] using h.live⟩

/-- R158, R164: the windows of a context in a state that has none of its own. -/
theorem Window.Unclaimed.map (h : (s.map i).input.Unclaimed) (armed : (s.ctx i).state ≠ .admitPending)
    (run : (s.ctx i).state ≠ .running) (drain : (s.ctx i).state ≠ .draining) (start : (s.ctx i).state ≠ .starting) : MapAt i s :=
  ⟨by simp [h.armed, armed], by simp [h.live, run], fun e => absurd e drain, fun e => absurd e start⟩

theorem Window.Unclaimed.of_vacant {w : Window} (h : w = .vacant) : w.Unclaimed := by rw [h]; exact ⟨rfl, rfl⟩

theorem Window.Unclaimed.of_retiring {w : Window} (h : w.isRetiring = true) : w.Unclaimed := by
  cases w <;> simp_all [Window.isRetiring]
  exact ⟨rfl, rfl⟩

theorem unclaimed_disarm {w : Window} (h : w.isLive = false) : w.disarm.Unclaimed := by
  cases w <;> first | exact ⟨rfl, rfl⟩ | cases h

theorem unclaimed_retire (w : Window) : w.retire.Unclaimed := by
  cases w <;> exact ⟨rfl, rfl⟩

theorem Window.Unclaimed.disarm_eq {w : Window} (h : w.Unclaimed) : w.disarm = w := by
  obtain ⟨h, -⟩ := h
  cases w <;> first | rfl | cases h

/-- A slot that holds nothing, in a state in which it holds nothing. -/
theorem Holds.idle (h : Holds i false 0 [] t) (idle : (t.ctx i).state.idle = true) (w : m → (t.map i).input.Unclaimed) :
    RightAt m i t := by
  have entry : (t.ctx i).entry = [] := by
    unfold Context.entry
    revert idle
    cases (t.ctx i).state <;> simp [CtxState.idle]
  refine ⟨Holds.power_off (entry ▸ h) ?_, fun hm => (w hm).map ?_ ?_ ?_ ?_⟩ <;> revert idle <;>
    cases (t.ctx i).state <;> simp [CtxState.idle, CtxState.powered]

/-! ### Ends of a bring-up (R21, R27 to R30) -/

/-- From `s` to `t` slot `i`, which held nothing, has ended. -/
structure Ends (m : Prop) (i : SlotIx) (s t : State) : Prop where
  touches : Touches i s t
  holds : Holds i false 0 [] t
  state : (t.ctx i).state.idle = true
  input : m → (t.map i).input.Unclaimed

theorem milestone_neutral (i : SlotIx) (s : State) : Neutral i s (milestone i s) := .post _ _

theorem enterWithdrawn_touches (i : SlotIx) (r : Reason) (s : State) : Touches i s (enterWithdrawn i r s) :=
  (Touches.modCtx _ rfl).trans (milestone_neutral i _).touches

@[simp] theorem milestone_ctx (i j : SlotIx) (s : State) : (milestone i s).ctx j = s.ctx j := rfl
@[simp] theorem milestone_map (i j : SlotIx) (s : State) : (milestone i s).map j = s.map j := rfl
@[simp] theorem milestone_slotPower (i j : SlotIx) (s : State) : (milestone i s).slotPower j = s.slotPower j := rfl
@[simp] theorem milestone_power (i : SlotIx) (s : State) : (milestone i s).power = s.power := rfl

theorem enterWithdrawn_ends (r : Reason) (h : Holds i false 0 [] s) (w : m → (s.map i).input.Unclaimed) :
    Ends m i s (enterWithdrawn i r s) :=
  ⟨enterWithdrawn_touches i r s, h.congr (by simp [enterWithdrawn]) (by simp [enterWithdrawn]) rfl,
    by simp [enterWithdrawn, CtxState.idle], by simpa [enterWithdrawn] using w⟩

theorem enterFaulted_ends (f : Option FaultRecord) (h : Holds i false 0 [] s) (w : m → (s.map i).input.Unclaimed) :
    Ends m i s (enterFaulted i f s) :=
  ⟨(Touches.modCtx _ rfl).trans (milestone_neutral i _).touches,
    h.congr (by simp [enterFaulted]) (by simp [enterFaulted]) rfl, by simp [enterFaulted, CtxState.idle],
    by simpa [enterFaulted] using w⟩

theorem Holds.debounced (h : Holds i on d q s) (f : SlotPower → SlotPower) (switch : (f (s.slotPower i)).switchOn = (s.slotPower i).switchOn)
    (still : (s.slotPower i).Still → (f (s.slotPower i)).Still) : Holds i on d q (modPower i f s) :=
  ⟨by simpa [switch] using h.switch, by simpa using still h.still, by simpa using h.held, h.entries, h.owner⟩

/-- R33 to R36: the examination of a line. -/
theorem examineLine_ends (h : Holds i false 0 [] s) (e : (s.ctx i).state.idle = true) (w : m → (s.map i).input.Unclaimed) :
    Ends m i s (examineLine i s) := by
  unfold examineLine
  split
  · refine ⟨(Touches.modPower _).trans (.modCtx _ rfl), ?_, by simp [assertion, CtxState.idle], by simpa [assertion] using w⟩
    refine (h.debounced (fun p => { p with
      debouncer := .rising Config.debounceShort, presentTimer := some Config.debounceShort, absentTimer := none }) rfl ?_).congr
      (by simp [assertion]) (by simp [assertion]) rfl
    exact fun x => ⟨x.deadline, x.minimum, x.good, x.runPhase⟩
  · exact ⟨.refl i s, h, e, w⟩

theorem enterEmpty_ends (h : Holds i false 0 [] s) (w : m → (s.map i).input.Unclaimed) : Ends m i s (enterEmpty i s) := by
  have a : Touches i s (milestone i (modCtx i (fun c => { Context.reset with hold := c.hold }) s)) :=
    (Touches.modCtx _ h.held.symm).trans (milestone_neutral i _).touches
  obtain ⟨b₁, b₂, b₃, b₄⟩ := examineLine_ends (m := m) (s := milestone i (modCtx i (fun c => { Context.reset with hold := c.hold }) s))
    (i := i) (h.congr (by simp [Context.reset, h.held]) (by simp) rfl) (by simp [Context.reset, CtxState.idle]) (by simpa using w)
  exact ⟨a.trans b₁, b₂, b₃, b₄⟩

theorem restartSettling_ends (h : Holds i false 0 [] s) : Ends m i s (restartSettling i s) := by
  refine ⟨((retire_touches i s).trans (.modCtx _ ?_)).trans (.modPower _), Holds.debounced ?_ _ rfl ?_, ?_, fun _ => ?_⟩
  · simp [retire, h.held, Context.reset]
  · exact h.congr (by simp [retire, h.held, Context.reset]) (by simp [retire]) rfl
  · exact fun x => ⟨x.deadline, x.minimum, x.good, x.runPhase⟩
  · simp [restartSettling, CtxState.idle]
  · simpa [restartSettling, retire, SlotMap.change] using unclaimed_retire _

theorem Ends.right (h : Ends m i s t) : RightAt m i t := h.holds.idle h.state h.input

/-- R5: switch-off with releases at the end of a bring-up. -/
theorem withReleases_ends {finish : State → State} (h : Sound m (some i) s) (off : Off i s)
    (hf : ∀ t, Holds i false 0 [] t → (t.map i).input = (s.map i).input.disarm → Ends m i t (finish t)) :
    Sound m none (withReleases i finish s) :=
  withReleases_sound h off fun t _ _ held power input entries owner =>
    have e := hf t ⟨by rw [power]; rfl, by rw [power]; exact still_off _, held, entries, owner⟩ input
    ⟨e.touches, e.right⟩

/-- R5, R30: withdrawal. -/
theorem withdraws_sound (r : Reason) (h : Sound m (some i) s) (off : Off i s) (live : m → (s.map i).input.isLive = false) :
    Sound m none (withReleases i (enterWithdrawn i r) s) :=
  withReleases_ends h off fun _ ht e => enterWithdrawn_ends r ht fun hm => e ▸ unclaimed_disarm (live hm)

theorem faults_sound (f : Option FaultRecord) (h : Sound m (some i) s) (off : Off i s) (live : m → (s.map i).input.isLive = false) :
    Sound m none (withReleases i (enterFaulted i f) s) :=
  withReleases_ends h off fun _ ht e => enterFaulted_ends f ht fun hm => e ▸ unclaimed_disarm (live hm)

theorem empties_sound (h : Sound m (some i) s) (off : Off i s) (live : m → (s.map i).input.isLive = false) :
    Sound m none (withReleases i (enterEmpty i) s) :=
  withReleases_ends h off fun _ ht e => enterEmpty_ends ht fun hm => e ▸ unclaimed_disarm (live hm)

theorem restarts_sound (h : Sound m (some i) s) (off : Off i s) : Sound m none (withReleases i (restartSettling i) s) :=
  withReleases_ends h off fun _ ht _ => restartSettling_ends ht

/-- A slot in order that is not RUNNING has no LIVE window. -/
theorem RightAt.not_live (h : RightAt m i s) (ne : (s.ctx i).state ≠ .running) (hm : m) : (s.map i).input.isLive = false := by
  simpa [ne] using (h.map hm).live

/-- R21: a definitive fault. -/
theorem definitiveFault_sound (kind : FaultKind) (detail : Nat) (h : Sound m none s) (ne : (s.ctx i).state ≠ .running) :
    Sound m none (definitiveFault i kind detail s) :=
  faults_sound _ (h.except i) (h.at i).power.isOff ((h.at i).not_live ne)

/-! ### The retry (R20) -/

theorem baseTraining_neutral (i : SlotIx) (s : State) : Neutral i s (baseTraining i s) :=
  (Neutral.modLink _).trans ((Neutral.modCtx _ rfl rfl rfl rfl).trans (.send _))

/-- What a card that trains anew starts from: its switch is on and past the standby inrush. -/
structure Retryable (i : SlotIx) (s : State) : Prop where
  switch : (s.slotPower i).switchOn = true
  deadline : (s.slotPower i).deadlineTimer = none
  minimum : (s.slotPower i).minimumTimer = none
  good : (s.slotPower i).goodSeen = false
  held : 150 ≤ (s.ctx i).heldDraw

theorem PowerAt.retryable (h : PowerAt i s) (on : (s.slotPower i).switchOn = true) (ne : (s.ctx i).state ≠ .standbyInrush) :
    Retryable i s := by
  refine ⟨on, ?_, ?_, ?_, h.held_ge on⟩
  · by_contra c; exact ne (h.deadline (.inl (Option.isSome_iff_ne_none.2 c)))
  · by_contra c; exact ne (h.deadline (.inr (Option.isSome_iff_ne_none.2 c)))
  · by_contra c; exact ne (h.good (by simpa using c))

/-- R20, R39: what is left of a run-powered card that returns to standby. -/
theorem backToStandby_holds (h : Retryable i s) (entries : entriesIn s.power.queue i = []) :
    Touches i s (backToStandby i s) ∧ Holds i true 150 [] (backToStandby i s)
      ∧ (backToStandby i s).map i = s.map i := by
  have others : ∀ j, j ≠ i → (backToStandby i s).slot j = s.slot j := fun j hj => by
    simp [backToStandby, freeAllowance, modCtx_slot_ne _ _ hj, modPower_slot_ne _ _ hj]
  have held : ((backToStandby i s).ctx i).heldDraw = 150 := by
    have := h.held
    simp [backToStandby, freeAllowance, Config.standbyDraw, this]
  have committed : (backToStandby i s).power.committed = s.power.committed - ((s.ctx i).heldDraw - 150) := by
    simp [backToStandby, freeAllowance, Config.standbyDraw]
  have queue : (backToStandby i s).power.queue = s.power.queue := by simp [backToStandby, freeAllowance]
  have owner : (backToStandby i s).power.owner = (freeAllowance i s).power.owner := by
    by_cases e : s.power.owner = some i <;> simp [backToStandby, freeAllowance, e]
  have map : (backToStandby i s).map i = s.map i := by simp [backToStandby, freeAllowance]
  refine ⟨?_, ⟨?_, ⟨?_, ?_, ?_, ?_⟩, held, by rw [queue]; exact entries, by rw [owner]; exact freeAllowance_owner i s⟩, map⟩
  · have maps : ∀ j, (backToStandby i s).map j = s.map j := fun j => by
      by_cases e : j = i
      · rw [e]; exact map
      · exact congrArg Slot.map (others j e)
    have trunk : (backToStandby i s).trunk = s.trunk := by simp [backToStandby, freeAllowance]
    refine ⟨others, fun _ _ => by rw [queue], fun j hj => by rw [owner]; exact (freeAllowance_touches i s).owner j hj, fun c => ?_,
      fun h => h.narrow (by rw [trunk]) (by rw [trunk]) (fun j => by rw [maps]; exact id) (fun j w => by rw [maps]; exact id)
        fun j w => by rw [maps]; exact id⟩
    have total := heldTotal_add others
    have := h.held
    rw [committed]
    omega
  · simp [backToStandby, freeAllowance, h.switch]
  · simp [backToStandby, freeAllowance, h.deadline]
  · simp [backToStandby, freeAllowance, h.minimum]
  · simp [backToStandby, freeAllowance, h.good]
  · simp [backToStandby, freeAllowance]

/-- A slot that has its link trained, or is past it, on standby power. -/
theorem Holds.standby {x : CtxState} (h : Holds i true 150 [] t) (state : (t.ctx i).state = x)
    (hx : x ∈ [.linkTraining, .identifying, .parked, .rateTraining]) (w : m → (t.map i).input.Unclaimed) : RightAt m i t := by
  simp only [List.mem_cons, List.not_mem_nil, or_false] at hx
  have draw : (t.ctx i).draw = 150 := by rcases hx with rfl | rfl | rfl | rfl <;> rw [Context.draw, state]
  have entry : (t.ctx i).entry = [] := by rcases hx with rfl | rfl | rfl | rfl <;> rw [Context.entry, state]
  refine ⟨Holds.power_on (by rw [draw, entry]; exact h) ?_ ?_, fun hm => (w hm).map ?_ ?_ ?_ ?_⟩ <;>
    rcases hx with rfl | rfl | rfl | rfl <;> simp [state, CtxState.powered, CtxState.inrush]

theorem retry_sound (h : Sound m (some i) s) (r : Retryable i s) (live : m → (s.map i).input.isLive = false) :
    Sound m none (retry i s) := by
  obtain ⟨b, holds, map⟩ := backToStandby_holds (s := leaveQueue i s) (i := i) ⟨r.switch, r.deadline, r.minimum, r.good, r.held⟩
    (entriesIn_filter_same _ _)
  let v := backToStandby i (leaveQueue i s)
  have n := unpin_neutral i v
  let u := modCtx i (fun c =>
    { c with state := .linkTraining, reason := none, identity := none, result := none, layout := none, progress := none
             walk := none, download := none }) (disarm i (unpin i v))
  have a : Touches i s u :=
    (leaveQueue_touches i s).trans (b.trans (n.touches.trans ((disarm_touches i _).trans (Touches.modCtx _ rfl))))
  have hu : Holds i true 150 [] u := holds.congr (by simp [u, disarm, n.held, v]) (by simp [u, disarm, n.power, v]) n.rack
  have input : (u.map i).input = (s.map i).input.disarm := by
    have : (u.map i).input = ((unpin i v).map i).input.disarm := by simp [u, disarm, SlotMap.change]
    rw [this, n.input, map]
    rfl
  have state : (u.ctx i).state = .linkTraining := by simp [u]
  refine besidePass_sound _ (h.touch a) (fun j e => Option.some.inj e ▸ hu.entries) fun t ht w => recheckIf_sound _ ?_
  have slot := w.slot i rfl
  have c : t.ctx i = u.ctx i := congrArg Slot.ctx slot
  have p : t.slotPower i = u.slotPower i := congrArg Slot.power slot
  have x : t.map i = u.map i := congrArg Slot.map slot
  have ht' : Holds i true 150 [] t := ⟨by rw [p]; exact hu.switch, by rw [p]; exact hu.still, by rw [c]; exact hu.held,
    w.entries i rfl, fun e => hu.owner ((w.owner i rfl).1 e)⟩
  have y := baseTraining_neutral i t
  exact ht.finish y.touches (y.right (ht'.standby (by rw [c, state]) (by simp) fun hm => by
    rw [x, input]; exact unclaimed_disarm (live hm)))

theorem raiseAttempts_neutral (i : SlotIx) (s : State) : Neutral i s (raiseAttempts i s) := .modCtx _ rfl rfl rfl rfl

/-- R20: a transient fault of a slot whose switch is on. -/
theorem transientFault_sound (kind : FaultKind) (h : Sound m none s) (on : (s.ctx i).state.powered = some true)
    (standby : (s.ctx i).state ≠ .standbyInrush) (run : (s.ctx i).state ≠ .running) : Sound m none (transientFault i kind s) := by
  have n := raiseAttempts_neutral i s
  have h' := h.neutral n
  have power := (h'.at i).power
  unfold transientFault
  dsimp only
  split
  · exact retry_sound (h'.except i) (power.retryable (power.switches true (by rw [n.state, on])) (by rw [n.state]; exact standby))
      ((h'.at i).not_live (by rw [n.state]; exact run))
  · exact definitiveFault_sound _ _ h' (by rw [n.state]; exact run)

/-! ### Draining and stopping (R22 to R26) -/

theorem stopEnded_sound (h : Sound m none s) (ne : (s.ctx i).state ≠ .running) : Sound m none (stopEnded i s) :=
  withdraws_sound _ (h.except i) (h.at i).power.isOff ((h.at i).not_live ne)

/-- A DRAINING context. -/
theorem Holds.draining (h : Holds i on d [] t) (state : (t.ctx i).state = .draining)
    (held : d = if on then (t.ctx i).draw else 0) (lost : (t.ctx i).reason = some .linkLost → on = true)
    (input : m → (t.map i).input.isRetiring = true) : RightAt m i t := by
  refine ⟨.of_draining state h.still (by rw [h.switch, h.held, held]) h.entries h.owner (by rw [h.switch]; exact lost), fun hm => ?_⟩
  have w := Window.Unclaimed.of_retiring (input hm)
  exact ⟨by simp [w.armed, state], by simp [w.live, state], fun _ => input hm, fun e => by rw [state] at e; cases e⟩

/-- R5: switch-off with releases of a context that drains. -/
theorem withReleases_drains {finish : State → State} (h : Sound m (some i) s) (off : Off i s)
    (hf : ∀ t, Holds i false 0 [] t → (t.map i).input = (s.map i).input.disarm → (t.ctx i).state = (s.ctx i).state →
      Touches i t (finish t) ∧ Holds i false 0 [] (finish t) ∧ ((finish t).ctx i).state = .draining
        ∧ ((finish t).ctx i).reason ≠ some .linkLost ∧ (m → ((finish t).map i).input.isRetiring = true)) :
    Sound m none (withReleases i finish s) :=
  withReleases_sound h off fun t state _ held power input entries owner =>
    have ⟨a, b, c, d, e⟩ := hf t ⟨by rw [power]; rfl, by rw [power]; exact still_off _, held, entries, owner⟩ input state
    ⟨a, b.draining c rfl (fun l => absurd l d) e⟩

theorem enterDraining_touches (i : SlotIx) (cause : Reason) (s : State) : Touches i s (enterDraining i cause s) :=
  (retire_touches i s).trans (.modCtx _ rfl)

theorem enterDraining_ctx (i : SlotIx) (cause : Reason) (s : State) :
    (enterDraining i cause s).ctx i = { s.ctx i with state := .draining, reason := some cause } := by
  simp [enterDraining, retire]

theorem enterDraining_input (i : SlotIx) (cause : Reason) (s : State) :
    ((enterDraining i cause s).map i).input = (s.map i).input.retire := by
  simp [enterDraining, retire, SlotMap.change]

theorem Holds.enterDraining (h : Holds i on d q s) (cause : Reason) : Holds i on d q (enterDraining i cause s) :=
  h.congr (by simp [enterDraining_ctx]) (by simp [Machine.enterDraining, retire]) rfl

theorem retiring_of_live {w : Window} (h : w.isLive = true) : w.retire.isRetiring = true := by
  cases w <;> first | rfl | cases h

/-- R22, R24, R29: a RUNNING context drains with its power standing. -/
theorem enterDraining_sound (cause : Reason) (h : Sound m none s) (state : (s.ctx i).state = .running) :
    Sound m none (enterDraining i cause s) := by
  have r := h.at i
  have holds := (r.power.holds_on (by rw [state]; rfl) (by rw [state]; rfl)).enterDraining cause
  have entry : (s.ctx i).entry = [] := by rw [Context.entry, state]
  rw [entry] at holds
  refine h.put (enterDraining_touches i cause s) (holds.draining (by rw [enterDraining_ctx]) ?_ (fun _ => rfl) fun hm => ?_)
  · rw [if_pos rfl, Context.draw, Context.draw, enterDraining_ctx, state]
  · rw [enterDraining_input]
    exact retiring_of_live ((r.map hm).live.2 state)

/-- R25: the drain is complete, its windows VACANT already. -/
theorem drainComplete_sound (h : Sound m (some i) s) (p : PowerAt i s) (state : (s.ctx i).state = .draining)
    (vacant : m → (s.map i).input = .vacant) : Sound m none (drainComplete i s) := by
  have live : m → (s.map i).input.isLive = false := fun hm => by rw [vacant hm]; rfl
  have entry : (s.ctx i).entry = [] := by rw [Context.entry, state]
  have withdrawn := withdraws_sound .command h p.isOff live
  have faulted := fun f => faults_sound f h p.isOff live
  unfold drainComplete
  dsimp only
  split
  · exact empties_sound h p.isOff live
  · split
    · next c =>
      have holds := p.holds (by rw [state]; simp) (by rw [state]; simp)
      rw [p.draws, c.1, if_pos rfl, entry] at holds
      let t := send i (.request .stop) (modCtx i (fun c => { c with state := .stopping, reason := some .command }) s)
      have ctx : t.ctx i = { s.ctx i with state := .stopping, reason := some .command } := by simp [t]
      have draw : (t.ctx i).draw = (s.ctx i).draw := by rw [Context.draw, Context.draw, ctx, state]
      have none : (t.ctx i).entry = [] := by rw [Context.entry, ctx]
      have ht : Holds i true (t.ctx i).draw (t.ctx i).entry t := by
        rw [draw, none]
        exact holds.congr (by rw [ctx]) (by simp [t]) (by simp [t])
      refine h.finish ((Touches.modCtx _ rfl).trans (Neutral.send _).touches) ⟨ht.power_on (by rw [ctx]; rfl) (by rw [ctx]; rfl),
        fun hm => Window.Unclaimed.map ?_ (by simp) (by simp) (by simp) (by simp)⟩
      simpa using Window.Unclaimed.of_vacant (vacant hm)
    · exact withdrawn
  · next lost =>
    split
    · split
      · exact retry_sound h (p.retryable (p.drains state lost) (by rw [state]; simp)) live
      · exact faulted _
    · exact faulted _
  · exact faulted _

end

end Sys2Proof.Machine
end

section
/-! SUPPORT. The forward path (R6 to R16), matching, the download, admission and the reports to a context, on the power account and the
windows. -/

namespace Sys2Proof.Machine

section
variable {m : Prop} {busy : Option SlotIx} {i : SlotIx} {on : Bool} {d : Nat} {q : List (Stage × Nat)} {s t u : State}

/-! ### Joining the power-up queue (R45) -/

/-- R45: the state with the entry of a slot behind the others, before the pass. -/
def queued (i : SlotIx) (stage : Stage) (increase : Nat) (s : State) : State :=
  modRack (fun p => { p with queue := p.queue ++
    [{ slot := i, stage := stage, increase := increase,
       priority := ((s.expected i).map ExpRecord.priority).getD .normal, passedOver := false }] }) s

theorem join_eq (i : SlotIx) (stage : Stage) (increase : Nat) (s : State) :
    join i stage increase s = pass (queued i stage increase s) := rfl

theorem queued_touches (i : SlotIx) (stage : Stage) (increase : Nat) (s : State) : Touches i s (queued i stage increase s) := by
  refine ⟨fun _ _ => rfl, fun j hj => ?_, fun _ _ => .rfl, id, fun h => h.narrow rfl rfl (fun _ => id) (fun _ _ => id) fun _ _ => id⟩
  simp [queued, entriesIn, hj.symm]

theorem Holds.queued (h : Holds i on d [] s) (stage : Stage) (increase : Nat) :
    Holds i on d [(stage, increase)] (queued i stage increase s) := by
  refine ⟨h.switch, h.still, h.held, ?_, h.owner⟩
  simp only [Machine.queued, modRack_power, entriesIn_append, h.entries]
  simp [entriesIn]

/-- R11: entry to RUN_WAIT from hold point 1. -/
theorem enterRunWait_sound (h : Sound m none s) (state : (s.ctx i).state = .rateTraining) : Sound m none (enterRunWait i s) := by
  have r := h.at i
  have holds := r.power.holds_on (by rw [state]; rfl) (by rw [state]; rfl)
  rw [Context.draw, Context.entry, state] at holds
  let u := modCtx i (fun c => { c with state := .runWait, reason := none }) s
  have hu : Holds i true 150 [] u := holds.congr (by simp [u]) (by simp [u]) rfl
  refine (h.put ((Touches.modCtx (s := s) (fun c => { c with state := .runWait, reason := none }) rfl).trans
    (queued_touches i .run ((s.ctx i).runDraw - Config.standbyDraw) u)) ⟨?_, fun hm => ?_⟩).pass
  · refine Holds.power_on ?_ (by simp [queued, u, CtxState.powered]) (by simp [queued, u, CtxState.inrush])
    have e := hu.queued .run ((s.ctx i).runDraw - Config.standbyDraw)
    have ctx : ((queued i .run ((s.ctx i).runDraw - Config.standbyDraw) u).ctx i) = { s.ctx i with state := .runWait, reason := none } := by
      simp [queued, u]
    rw [ctx]
    simpa [Context.draw, Context.entry, Context.runDraw, Config.standbyDraw] using e
  · exact Window.Unclaimed.map (by simpa [queued, u] using (r.map hm).unclaimed (by simp [state]) (by simp [state])) (by simp [queued, u])
      (by simp [queued, u]) (by simp [queued, u]) (by simp [queued, u])

theorem holdPointOne_sound (h : Sound m none s) : Sound m none (holdPointOne i s) := by
  unfold holdPointOne
  split
  · next c => exact enterRunWait_sound h c.1
  · exact h

/-- R6: *present*. -/
theorem reportPresent_sound (h : Sound m none s) : Sound m none (reportPresent i s) := by
  unfold reportPresent
  split
  · next state =>
    have r := h.at i
    have entry : (s.ctx i).entry = [] := by rw [Context.entry, state]
    obtain ⟨still, held, owner⟩ := r.power.off (r.power.switches false (by rw [state]; rfl))
    have holds : Holds i false 0 [] s := ⟨r.power.switches false (by rw [state]; rfl), still, held, entry ▸ r.power.entries, owner⟩
    have free : m → (s.map i).input.Unclaimed := fun hm => (r.map hm).unclaimed (by simp [state]) (by simp [state])
    split
    · have e := enterWithdrawn_ends .disabled holds free
      exact h.put e.touches e.right
    · rw [join_eq]
      let u := modCtx i (fun c => { c with state := .standbyWait, reason := none }) s
      have hu : Holds i false 0 [] u := holds.congr (by simp [u]) (by simp [u]) rfl
      refine (h.put ((Touches.modCtx (s := s) (fun c => { c with state := .standbyWait, reason := none }) rfl).trans
        (queued_touches i .standby Config.standbyDraw u)) ⟨?_, fun hm => ?_⟩).pass
      · have e := hu.queued .standby Config.standbyDraw
        have ctx : ((queued i .standby Config.standbyDraw u).ctx i) = { s.ctx i with state := .standbyWait, reason := none } := by
          simp [queued, u]
        refine Holds.power_off ?_ (by rw [ctx]; rfl)
        rw [ctx]
        simpa [Context.entry, Config.standbyDraw] using e
      · exact Window.Unclaimed.map (by simpa [queued, u] using free hm) (by simp [queued, u]) (by simp [queued, u]) (by simp [queued, u])
          (by simp [queued, u])
  · exact h

/-! ### Matching (R9, R10, R101 to R113) -/

/-- The states in which a card is matched. -/
def CtxState.matching : CtxState → Bool
  | .identifying | .parked => true
  | _ => false

/-- A slot whose card is being identified or is PARKED holds its standby draw. -/
theorem RightAt.standby (r : RightAt m i s) (state : (s.ctx i).state ∈ [CtxState.linkTraining, .identifying, .parked, .rateTraining]) :
    Holds i true 150 [] s ∧ (m → (s.map i).input.Unclaimed) := by
  simp only [List.mem_cons, List.not_mem_nil, or_false] at state
  refine ⟨?_, fun hm => (r.map hm).unclaimed ?_ ?_⟩
  · have h := r.power.holds_on (by rcases state with e | e | e | e <;> rw [e] <;> rfl)
      (by rcases state with e | e | e | e <;> rw [e] <;> rfl)
    rw [Context.draw, Context.entry] at h
    rcases state with e | e | e | e <;> rw [e] at h <;> exact h
  all_goals rcases state with e | e | e | e <;> simp [e]

theorem matching_standby {x : CtxState} (h : x.matching = true) : x ∈ [CtxState.linkTraining, .identifying, .parked, .rateTraining] := by
  cases x <;> simp_all [CtxState.matching]

/-- A change of a slot on standby power between the states of its identification. -/
theorem Sound.standby {x : CtxState} (h : Sound m none s) (state : (s.ctx i).state ∈ [CtxState.linkTraining, .identifying, .parked, .rateTraining])
    (a : Touches i s t) (held : (t.ctx i).heldDraw = (s.ctx i).heldDraw) (power : t.slotPower i = s.slotPower i)
    (rack : t.power = s.power) (input : (t.map i).input = (s.map i).input) (after : (t.ctx i).state = x)
    (hx : x ∈ [.linkTraining, .identifying, .parked, .rateTraining]) : Sound m none t := by
  obtain ⟨holds, free⟩ := (h.at i).standby state
  exact h.put a ((holds.congr held power rack).standby after hx fun hm => by rw [input]; exact free hm)

theorem pinFor_neutral (set : Option SetIx) (s : State) : Neutral i s (pinFor set s) := by
  unfold pinFor
  split
  · exact .modStore _
  · exact .refl i s

theorem park_touches (i : SlotIx) (reason : Reason) (result : MatchResult) (position : Option Nat) (outcome : SetOutcome) (count : Nat)
    (s : State) :
    let t := park i reason result position outcome count s
    Touches i s t ∧ t.ctx i = { s.ctx i with state := .parked, reason := some reason, result := some result, layout := none }
      ∧ t.slotPower i = s.slotPower i ∧ t.map i = s.map i ∧ t.power = s.power := by
  have a : Touches i s (modCtx i (fun c => { c with state := .parked, reason := some reason, result := some result, layout := none }) s) :=
    .modCtx _ rfl
  unfold park
  dsimp only
  split
  · exact ⟨a.trans (Neutral.post _ _).touches, by simp, by simp, by simp, rfl⟩
  · exact ⟨(a.trans (Neutral.post _ _).touches).trans (milestone_neutral i _).touches, by simp, by simp, by simp, rfl⟩

theorem park_sound (reason : Reason) (result : MatchResult) (position : Option Nat) (outcome : SetOutcome) (count : Nat)
    (h : Sound m none s) (state : (s.ctx i).state.matching = true) : Sound m none (park i reason result position outcome count s) := by
  obtain ⟨a, ctx, power, map, rack⟩ := park_touches i reason result position outcome count s
  exact h.standby (matching_standby state) a (by rw [ctx]) power rack (by rw [map]) (by rw [ctx]) (by simp)

/-- R9, R107: a card that goes forward, before it is asked to train. -/
def forwarded (i : SlotIx) (result : MatchResult) (layout : Layout) (rate : RateCode) (onRelease : Bool) (count : Nat)
    (s : State) : State :=
  post (some i) (.matchDone result.cls none result.substitute none
      (match layout.set with
       | some n => SetOutcome.pinned n
       | none => SetOutcome.none) (some rate) count)
    (modCtx i (fun c =>
      { c with state := .rateTraining, reason := none, result := some result, layout := some layout
               pinned := layout.set, hold := c.hold || onRelease }) (pinFor layout.set s))

theorem goForward_eq (i : SlotIx) (result : MatchResult) (layout : Layout) (rate : RateCode) (onRelease : Bool) (count : Nat)
    (s : State) :
    goForward i result layout rate onRelease count s =
      if rate = 0 then holdPointOne i (forwarded i result layout rate onRelease count s)
      else send i (.request (.setRate rate)) (forwarded i result layout rate onRelease count s) := rfl

theorem goForward_sound (result : MatchResult) (layout : Layout) (rate : RateCode) (onRelease : Bool) (count : Nat)
    (h : Sound m none s) (state : (s.ctx i).state.matching = true) :
    Sound m none (goForward i result layout rate onRelease count s) := by
  have n := pinFor_neutral (i := i) layout.set s
  have f : Sound m none (forwarded i result layout rate onRelease count s) := by
    refine h.standby (x := .rateTraining) (matching_standby state) (n.touches.trans ((Touches.modCtx _ rfl).trans (Neutral.post _ _).touches))
      ?_ ?_ n.rack ?_ ?_ (by simp)
    · simp [forwarded, n.held]
    · simp [forwarded, n.power]
    · simp [forwarded, n.input]
    · simp [forwarded]
  rw [goForward_eq]
  split
  · exact holdPointOne_sound f
  · exact f.neutral (.send _)

/-- R101: matching. -/
theorem runMatching_sound (h : Sound m none s) (state : (s.ctx i).state.matching = true) : Sound m none (runMatching i s) := by
  unfold runMatching
  split
  · exact h
  · split
    · split
      · split
        · exact park_sound _ _ _ _ _ h state
        · exact goForward_sound _ _ _ _ _ h state
      · exact withdraws_sound _ (h.except i) (h.at i).power.isOff ((h.at i).not_live fun e => by rw [e] at state; cases state)
    · split
      · exact park_sound _ _ _ _ _ h state
      · exact goForward_sound _ _ _ _ _ h state

theorem releases_touches (i : SlotIx) (s : State) : Touches i s (releases i s) :=
  (leaveQueue_touches i s).trans ((switchOff_touches i _).trans ((unpin_neutral i _).touches.trans
    ((Neutral.modLink _).touches.trans ((Touches.modCtx _ rfl).trans (disarm_touches i _)))))

theorem releases_queue (i : SlotIx) (s : State) : ∀ e ∈ (releases i s).power.queue, e ∈ s.power.queue := by
  intro e he
  rw [show (releases i s).power = (switchOff i (leaveQueue i s)).power from (unpin_neutral i _).rack] at he
  have queue : (switchOff i (leaveQueue i s)).power.queue = (leaveQueue i s).power.queue := by
    unfold switchOff
    split <;> rfl
  rw [queue] at he
  exact (List.mem_filter.1 he).1

theorem holdPointOne_slot_ne {j : SlotIx} (h : j ≠ i) (hq : ∀ e ∈ s.power.queue, e.slot ≠ j) :
    (holdPointOne i s).slot j = s.slot j := by
  unfold holdPointOne
  split
  · let u := modCtx i (fun c => { c with state := .runWait, reason := none }) s
    have e : enterRunWait i s = pass (queued i .run ((s.ctx i).runDraw - Config.standbyDraw) u) := rfl
    rw [e, (Beside.pass (checks := False) _).slot j ?_ False.elim]
    · exact modCtx_slot_ne (fun c => { c with state := .runWait, reason := none }) s h
    · intro x hx
      simp only [queued, modRack_power, List.mem_append, List.mem_singleton] at hx
      rcases hx with hx | rfl
      · exact hq x hx
      · exact h.symm
  · rfl

/-- R101: matching leaves a slot alone that has no entry in the power-up queue and does not wait in READY. -/
theorem runMatching_slot_ne {j : SlotIx} (h : j ≠ i) (hq : ∀ e ∈ s.power.queue, e.slot ≠ j) (hr : (s.ctx j).state ≠ .ready) :
    (runMatching i s).slot j = s.slot j := by
  have forward : ∀ result layout rate onRelease count, (goForward i result layout rate onRelease count s).slot j = s.slot j := by
    intro result layout rate onRelease count
    have f : (forwarded i result layout rate onRelease count s).slot j = s.slot j :=
      ((pinFor_neutral (i := i) layout.set s).touches.trans ((Touches.modCtx _ rfl).trans (Neutral.post _ _).touches)).others j h
    rw [goForward_eq]
    split
    · rw [holdPointOne_slot_ne h, f]
      intro e he
      refine hq e ?_
      rwa [show (forwarded i result layout rate onRelease count s).power = s.power from (pinFor_neutral (i := i) _ _).rack] at he
    · rw [send_slot_ne _ _ h, f]
  have parks : ∀ reason result position outcome count, (park i reason result position outcome count s).slot j = s.slot j :=
    fun reason result position outcome count => (park_touches i reason result position outcome count s).1.others j h
  unfold runMatching
  split
  · rfl
  · split
    · split
      · split
        · exact parks ..
        · exact forward ..
      · obtain ⟨u, w, a, b, e⟩ := withReleases_cases i (enterWithdrawn i .disabled) s
        have r := releases_touches i s
        have hr' := releases_queue i s
        have e₁ : u.slot j = s.slot j := (a.slot j (fun x hx => hq x (hr' x hx)) False.elim).trans (r.others j h)
        have e₂ : (enterWithdrawn i .disabled u).slot j = s.slot j := ((enterWithdrawn_touches i _ u).others j h).trans e₁
        rw [e, b.slot j (fun x hx => a.noEntry (fun x hx => hq x (hr' x hx)) x hx) fun _ c => absurd ?_ hr, e₂]
        rwa [State.ctx, e₂] at c
    · split
      · exact parks ..
      · exact forward ..

end

end Sys2Proof.Machine
end


section
/-! SUPPORT. Identification, the download, admission, and what is reported to a context (R6 to R27), on the power account and the
windows. -/

namespace Sys2Proof.Machine

section
variable {m : Prop} {busy : Option SlotIx} {i : SlotIx} {on : Bool} {d : Nat} {q : List (Stage × Nat)} {s t u : State}

/-! ### Identification -/

theorem beginWalk_sound (h : Sound m none s) (state : (s.ctx i).state = .linkTraining) : Sound m none (beginWalk i s) :=
  h.standby (x := .identifying) (by simp [state]) ((Touches.modCtx _ rfl).trans (Neutral.send _).touches) (by simp [beginWalk])
    (by simp [beginWalk]) (by simp [beginWalk]) (by simp [beginWalk]) (by simp [beginWalk]) (by simp)

theorem readAnswered_sound (data : Bytes) (h : Sound m none s) (state : (s.ctx i).state = .identifying) :
    Sound m none (readAnswered i data s) := by
  unfold readAnswered
  split
  · exact h
  · split
    · exact h.neutral ((Neutral.modCtx _ rfl rfl rfl rfl).trans (.send _))
    · refine runMatching_sound (h.standby (x := .identifying) (by simp [state]) (.modCtx _ rfl) (by simp) (by simp) rfl (by simp)
        (by simp [state]) (by simp)) (by simp [state, CtxState.matching])
    · exact definitiveFault_sound _ _ h (by simp [state])

theorem rateTraining_sound (target : RateCode) (h : Sound m busy s) : Sound m busy (rateTraining i target s) :=
  h.neutral ((Neutral.modLink _).trans (.send _))

theorem setRateRefused_sound (code : RateCode) (h : Sound m none s) : Sound m none (setRateRefused i code s) := by
  have p := h.post (some i) (.rateReduced code (lowerCode code) .refused)
  unfold setRateRefused
  dsimp only
  split
  · exact holdPointOne_sound p
  · exact p.neutral (.send _)

/-! ### Past the run grant -/

/-- A slot on run power that has no window of its own. -/
theorem Holds.run {x : CtxState} (h : Holds i true (t.ctx i).runDraw [] t) (state : (t.ctx i).state = x)
    (hx : x ∈ [.parameterizing, .ready, .stopping]) (w : m → (t.map i).input.Unclaimed) : RightAt m i t := by
  simp only [List.mem_cons, List.not_mem_nil, or_false] at hx
  have draw : (t.ctx i).draw = (t.ctx i).runDraw := by rcases hx with rfl | rfl | rfl <;> rw [Context.draw, state] <;> rfl
  have entry : (t.ctx i).entry = [] := by rcases hx with rfl | rfl | rfl <;> rw [Context.entry, state]
  refine ⟨Holds.power_on (by rw [draw, entry]; exact h) ?_ ?_, fun hm => (w hm).map ?_ ?_ ?_ ?_⟩ <;>
    rcases hx with rfl | rfl | rfl <;> simp [state, CtxState.powered, CtxState.inrush]

theorem enterReady_sound (h : Sound m (some i) s) (holds : Holds i true (s.ctx i).runDraw [] s)
    (w : m → (s.map i).input.Unclaimed) : Sound m none (enterReady i s) := by
  refine tryAdmit_sound i (h.finish (Touches.modCtx _ rfl) (Holds.run (x := .ready) ?_ (by simp) (by simp) (by simpa using w)))
  have e : ((modCtx i (fun c => { c with state := .ready, reason := none }) s).ctx i).runDraw = (s.ctx i).runDraw := by
    simp [Context.runDraw]
  rw [e]
  exact holds.congr (by simp) (by simp) rfl

theorem setPhase_neutral (i : SlotIx) (phase : DownloadPhase) (s : State) : Neutral i s (setPhase i phase s) :=
  .modCtx _ rfl rfl rfl rfl

theorem enterParameterizing_sound (n : SetIx) (h : Sound m (some i) s) (holds : Holds i true (s.ctx i).runDraw [] s)
    (w : m → (s.map i).input.Unclaimed) : Sound m none (enterParameterizing i n s) := by
  let f : Context → Context := fun c =>
    { c with state := .parameterizing, reason := none, progress := some 0, download := some (downloadFor n (s.ctx i) s) }
  have e : ((modCtx i f s).ctx i).runDraw = (s.ctx i).runDraw := by simp [Context.runDraw, f]
  have a : Sound m none (modCtx i f s) := by
    refine h.finish (Touches.modCtx _ rfl) (Holds.run (x := .parameterizing) ?_ (by simp [f]) (by simp) (by simpa using w))
    rw [e]
    exact holds.congr (by simp [f]) (by simp) rfl
  unfold enterParameterizing
  dsimp only
  split
  · exact definitiveFault_sound _ _ a (by simp)
  · exact a.neutral ((setPhase_neutral i .begin _).trans (.send _))

/-- R12: *run phase ended*, the allowance free. -/
theorem runPhaseEnded_sound (h : Sound m (some i) s) (state : (s.ctx i).state = .runInrush)
    (holds : Holds i true (s.ctx i).runDraw [] s) (w : m → (s.map i).input.Unclaimed) : Sound m none (runPhaseEnded i s) := by
  rw [runPhaseEnded, if_pos state]
  split
  · exact enterParameterizing_sound _ h holds w
  · exact enterReady_sound h holds w

theorem bulkComplete_neutral (i : SlotIx) (s : State) : Neutral i s (bulkComplete i s) :=
  (setPhase_neutral i _ s).trans (.send _)

theorem startTransfer_neutral (i : SlotIx) (s : State) : Neutral i s (startTransfer i s) := by
  unfold startTransfer
  split
  · exact .refl i s
  · split
    · exact bulkComplete_neutral i s
    · exact (setPhase_neutral i _ s).trans ((Neutral.modLink _).trans (.send _))

/-- What a slot holds whose parameters are being loaded. -/
theorem RightAt.parameterizing (r : RightAt m i s) (state : (s.ctx i).state = .parameterizing) :
    Holds i true (s.ctx i).runDraw [] s ∧ (m → (s.map i).input.Unclaimed) := by
  have holds := r.power.holds_on (by rw [state]; rfl) (by rw [state]; rfl)
  rw [Context.draw, Context.entry, state] at holds
  exact ⟨holds, fun hm => (r.map hm).unclaimed (by simp [state]) (by simp [state])⟩

theorem downloadComplete_sound (h : Sound m none s) (state : (s.ctx i).state = .parameterizing) :
    Sound m none (downloadComplete i s) := by
  have n : Neutral i s (modCtx i (fun c => { c with progress := none, download := none }) (unpin i s)) :=
    (unpin_neutral i s).trans (.modCtx _ rfl rfl rfl rfl)
  have h' := h.neutral n
  obtain ⟨holds, w⟩ := (h'.at i).parameterizing (by rw [n.state, state])
  exact enterReady_sound (h'.except i) holds w

/-! ### Admission (R15, R162) -/

theorem mem_allSlots (j : SlotIx) : j ∈ allSlots := by
  revert j
  decide

/-- R158: what an admission check that passes has found. -/
theorem admission_none (h : s.admission i = none) :
    ((s.ctx i).window .output).finish ≤ s.trunk.outLength ∧ ((s.ctx i).window .input).finish ≤ s.trunk.inLength
      ∧ ∀ j v, j ≠ i → (s.map j).input.claimed = some v → ((s.ctx i).window .input).overlaps v = false := by
  unfold State.admission at h
  dsimp only at h
  split at h
  · cases h
  · split at h
    · cases h
    · split at h
      · cases h
      · split at h
        · cases h
        · next out inl =>
          refine ⟨by omega, by omega, fun j v hj hv => ?_⟩
          rw [State.overlapping, Option.map_map, Option.map_eq_none_iff, List.find?_eq_none] at h
          have := h j (mem_allSlots j)
          simpa [hj, hv] using this

theorem overlaps_false {a b : Span} (h : a.overlaps b = false) (k : Nat) :
    ¬ ((a.offset ≤ k ∧ k < a.offset + a.length) ∧ (b.offset ≤ k ∧ k < b.offset + b.length)) := by
  rw [Span.overlaps, decide_eq_false_iff_not] at h
  simp only [Span.finish] at h
  omega

/-- R15, R162: the windows that become ARMED. -/
theorem WindowsOk.arm (h : WindowsOk s) (adm : s.admission i = none) (others : ∀ j, j ≠ i → t.map j = s.map j)
    (trunk : t.trunk = s.trunk) (output : (t.map i).output = .armed ((s.ctx i).window .output))
    (input : (t.map i).input = .armed ((s.ctx i).window .input)) : WindowsOk t := by
  obtain ⟨out, inl, apart⟩ := admission_none adm
  have claimed : ∀ w, (t.map i).input.claimed = some w → w = (s.ctx i).window .input := fun w e => by
    rw [input] at e
    exact (Option.some.inj e).symm
  refine ⟨fun j => ?_, fun j w e => ?_, fun j w e => ?_, fun a b v w k hab ha hb => ?_⟩
  · by_cases c : j = i
    · rw [c, SlotMap.paired, output, input]; trivial
    · rw [others j c]; exact h.paired j
  · rw [trunk]
    by_cases c : j = i
    · rw [c, output] at e
      cases e
      exact out
    · rw [others j c] at e; exact h.inOutput j w e
  · rw [trunk]
    by_cases c : j = i
    · rw [c] at e
      cases claimed w e
      exact inl
    · rw [others j c] at e; exact h.inInput j w e
  · by_cases ca : a = i
    · rw [ca] at ha
      rw [others b (by rintro rfl; exact hab ca)] at hb
      rw [claimed v ha]
      exact overlaps_false (apart b w (by rintro rfl; exact hab ca) hb) k
    · rw [others a ca] at ha
      by_cases cb : b = i
      · rw [cb] at hb
        rw [claimed w hb]
        exact fun x => overlaps_false (apart a v ca ha) k x.symm
      · rw [others b cb] at hb
        exact h.apart a b v w k hab ha hb

/-- A context that moves on run power between states that hold no place in the power-up queue. -/
theorem PowerAt.run_move (h : PowerAt i s) {x y : CtxState} (before : (s.ctx i).state = x) (after : (t.ctx i).state = y)
    (hx : x ∈ [.starting, .admitPending, .ready]) (hy : y ∈ [.admitPending, .running]) (held : (t.ctx i).heldDraw = (s.ctx i).heldDraw)
    (identity : (t.ctx i).identity = (s.ctx i).identity) (power : t.slotPower i = s.slotPower i) (rack : t.power = s.power) :
    PowerAt i t := by
  simp only [List.mem_cons, List.not_mem_nil, or_false] at hx hy
  have holds : Holds i true (s.ctx i).draw (s.ctx i).entry s :=
    h.holds_on (by rcases hx with rfl | rfl | rfl <;> rw [before] <;> rfl) (by rcases hx with rfl | rfl | rfl <;> rw [before] <;> rfl)
  have draw : (t.ctx i).draw = (s.ctx i).draw := by
    rw [Context.draw, Context.draw, identity]
    rcases hx with rfl | rfl | rfl <;> rcases hy with rfl | rfl <;> rw [before, after]
  have entry : (t.ctx i).entry = (s.ctx i).entry := by
    rw [Context.entry, Context.entry]
    rcases hx with rfl | rfl | rfl <;> rcases hy with rfl | rfl <;> rw [before, after]
  refine Holds.power_on (by rw [draw, entry]; exact holds.congr held power rack) ?_ ?_ <;> rcases hy with rfl | rfl <;> rw [after] <;> rfl

theorem armWindows_sound (h : Sound m none s) (state : (s.ctx i).state = .starting) : Sound m none (armWindows i s) := by
  have r := h.at i
  unfold armWindows
  split
  · next f _ =>
    let u := modCtx i (fun c => { c with reason := none }) s
    obtain ⟨a, ctx, power, map, rack⟩ := refuseAdmission_touches (s := u) (i := i) f
    have state' : ((refuseAdmission i f u).ctx i).state = .ready := by rw [ctx]
    refine h.put ((Touches.modCtx _ rfl).trans a) ⟨r.power.ready_move (.inr state) (.inl state') (by rw [ctx]; simp [u])
      (by rw [ctx]; simp [u]) (by rw [power]; simp [u]) (by rw [rack]; rfl), fun hm => Window.Unclaimed.map ?_
      (by rw [state']; decide) (by rw [state']; decide) (by rw [state']; decide) (by rw [state']; decide)⟩
    rw [map]
    simpa [u] using (r.map hm).unclaimed (by simp [state]) (by simp [state])
  · next adm =>
    dsimp only
    refine h.put ⟨fun j hj => ?_, fun _ _ => rfl, fun _ _ => .rfl, fun c => ?_, fun w => w.arm adm (fun j hj => ?_) rfl (by simp) (by simp)⟩
      ⟨r.power.run_move state (y := .admitPending) (by simp) (by simp) (by simp) (by simp) (by simp) (by simp) rfl, fun _ => ?_⟩
    · rw [modCtx_slot_ne _ _ hj, modMap_slot_ne _ _ hj]
    · refine c.trans (congrArg (fun l => List.sum (allSlots.map l)) (funext fun j => ?_))
      by_cases e : j = i
      · subst e; simp
      · rw [modCtx_ctx_ne _ _ e, modMap_ctx]
    · rw [modCtx_map, modMap_map_ne _ _ hj]
    · constructor <;> simp [Window.isArmed, Window.isLive]

/-! ### Reports by the slot's link -/

theorem dropTransient_powered {x : CtxState} (h : x.dropTransient = true) : x.powered = some true ∧ x ≠ .standbyInrush ∧ x ≠ .running := by
  revert h
  cases x <;> decide

theorem reportLinkDrop_sound (h : Sound m none s) : Sound m none (reportLinkDrop i s) := by
  unfold reportLinkDrop
  split
  · next c =>
    obtain ⟨on, standby, run⟩ := dropTransient_powered c
    exact transientFault_sound _ h on standby run
  · split
    · next c => exact stopEnded_sound h (by simp [c])
    · exact h

theorem reportLinkTrain_sound (h : Sound m none s) : Sound m none (reportLinkTrain i s) := by
  unfold reportLinkTrain
  split
  · next c =>
    refine transientFault_sound _ h ?_ ?_ ?_ <;> rcases c with e | e <;> rw [e] <;> decide
  · exact h

theorem reportLinkUp_sound (h : Sound m none s) : Sound m none (reportLinkUp i s) := by
  unfold reportLinkUp
  split
  · next c => exact beginWalk_sound h c
  · exact holdPointOne_sound h
  · exact h

theorem reportControlTimeout_sound (h : Sound m none s) : Sound m none (reportControlTimeout i s) := by
  have transient : ∀ x : CtxState, (s.ctx i).state = x → x.dropTransient = true → Sound m none (transientFault i .ctrlTimeout s) :=
    fun x e hx => by
      obtain ⟨on, standby, run⟩ := dropTransient_powered hx
      exact transientFault_sound _ h (e ▸ on) (e ▸ standby) (e ▸ run)
  unfold reportControlTimeout
  split
  · next c => exact transient _ c rfl
  · next c => exact transient _ c rfl
  · next c => exact transient _ c rfl
  · next c => exact transient _ c rfl
  · next c => exact transient _ c rfl
  · next c => exact stopEnded_sound h (by simp [c])
  · exact h

theorem reportBulkFault_sound (kind : FaultKind) (h : Sound m none s) : Sound m none (reportBulkFault i kind s) := by
  unfold reportBulkFault
  split
  · next c => exact transientFault_sound _ h (by rw [c]; rfl) (by simp [c]) (by simp [c])
  · exact h

theorem reportStall_sound (detail : Nat) (h : Sound m none s) : Sound m none (reportStall i detail s) := by
  unfold reportStall
  split
  · next c => exact definitiveFault_sound _ _ h (by simp [c])
  · exact h

theorem reportBulkComplete_sound (h : Sound m none s) : Sound m none (reportBulkComplete i s) := by
  unfold reportBulkComplete
  split
  · exact h.neutral (bulkComplete_neutral i s)
  · exact h

/-- R12, R39: ENABLE_RUN answered OK: the run phase is timed. -/
theorem runPhase_sound (n : Option Nat) (h : Sound m none s) (state : (s.ctx i).state = .runInrush) :
    Sound m none (modPower i (fun p => { p with runPhaseTimer := n }) s) := by
  refine h.move (.modPower _) fun _ r => ⟨⟨?_, ?_, ?_, ?_, ?_, ?_, ?_, ?_⟩, fun hm => ?_⟩
  · simpa using r.power.switches
  · simpa using r.power.draws
  · simpa using r.power.entries
  · simpa using r.power.owner
  · simpa using r.power.deadline
  · simpa using r.power.good
  · simp [state]
  · simp [state]
  · obtain ⟨w₁, w₂, w₃, w₄⟩ := r.map hm
    constructor <;> simpa

theorem reportOk_sound (r : ControlReq) (data : Bytes) (h : Sound m none s) : Sound m none (reportOk i r data s) := by
  unfold reportOk
  split
  · next c => exact readAnswered_sound _ h c
  · exact rateTraining_sound _ h
  · next c => exact runPhase_sound _ h c
  · exact h.neutral (startTransfer_neutral i s)
  · next c => exact downloadComplete_sound h c
  · next c => exact armWindows_sound h c
  · next c => exact stopEnded_sound h (by simp [c])
  · exact h

theorem reportRefused_sound (r : ControlReq) (code : Nat) (h : Sound m none s) : Sound m none (reportRefused i r code s) := by
  unfold reportRefused
  split
  · next c => exact definitiveFault_sound _ _ h (by simp [c])
  · exact setRateRefused_sound _ h
  · next c => exact definitiveFault_sound _ _ h (by simp [c])
  · next c => exact definitiveFault_sound _ _ h (by simp [c])
  · next c => exact definitiveFault_sound _ _ h (by simp [c])
  · next c => exact definitiveFault_sound _ _ h (by simp [c])
  · next c => exact stopEnded_sound h (by simp [c])
  · exact h

end

end Sys2Proof.Machine
end

section
/-! SUPPORT. Events at one slot (presence lines, switches, inrush timers, link), on the power account and the windows. -/

namespace Sys2Proof.Machine

section
variable {m : Prop} {busy : Option SlotIx} {i : SlotIx} {on : Bool} {d : Nat} {q : List (Stage × Nat)} {s t u : State}

/-! ### Training (R57 to R60) -/

theorem echoFailed_sound (h : Sound m none s) : Sound m none (echoFailed i s) := h.neutral ((Neutral.modLink _).trans (.send _))

theorem attemptPassed_sound (h : Sound m none s) : Sound m none (attemptPassed i s) := by
  unfold attemptPassed
  split
  · exact h
  · exact reportLinkUp_sound (h.neutral ((Neutral.modLink _).trans (.modCtx _ rfl rfl rfl rfl)))

theorem receiveEcho_sound (x : Option LinkFrame) (h : Sound m none s) : Sound m none (receiveEcho i x s) := by
  unfold receiveEcho
  split
  · exact h
  · split
    · have h' := h.neutral (Neutral.modLink (i := i) fun l => { l with echoes := min 4 (l.echoes + 1), echoTimer := none })
      unfold echoCounted
      dsimp only
      split
      · exact attemptPassed_sound h'
      · exact h'.neutral (.send _)
    · exact echoFailed_sound h

theorem echoWaitExpired_sound (h : Sound m none s) : Sound m none (echoWaitExpired i s) := by
  unfold echoWaitExpired
  split
  · exact h
  · exact echoFailed_sound h

theorem nextAttempt_neutral (i : SlotIx) (target : RateCode) (failures : Nat) (s : State) :
    Neutral i s (nextAttempt i target failures s) := (Neutral.modLink _).trans (.send _)

theorem attemptFailed_sound (h : Sound m none s) : Sound m none (attemptFailed i s) := by
  unfold attemptFailed
  split
  · exact h
  · split
    · exact h
    · split
      · exact h.neutral (nextAttempt_neutral ..)
      · split
        · exact (h.post _ _).neutral (nextAttempt_neutral ..)
        · exact reportLinkTrain_sound (h.neutral (.modLink _))

/-! ### The control pipe and the bulk pipe (R62 to R69) -/

theorem receiveControl_sound (r : ControlReq) (number : Nat) (x : Option LinkFrame) (h : Sound m none s) :
    Sound m none (receiveControl i r number x s) := by
  unfold receiveControl
  split
  · exact h
  · have h' := h.neutral (Neutral.modLink (i := i) fun l => { l with pipe := .idle, answerTimer := none, next := none })
    unfold handReply
    split
    · exact reportOk_sound _ _ h'
    · exact reportRefused_sound _ _ h'

theorem controlAnswerExpired_sound (h : Sound m none s) : Sound m none (controlAnswerExpired i s) := by
  unfold controlAnswerExpired
  split
  · exact h
  · split
    · exact h
    · exact h.neutral ((Neutral.modLink _).trans (.send _))
    · exact reportControlTimeout_sound (h.neutral (.modLink _))

theorem resendPacket_sound (b : Bulk) (h : Sound m none s) : Sound m none (resendPacket i b s) := by
  unfold resendPacket
  split
  · exact h.neutral ((Neutral.modLink _).trans (.send _))
  · exact reportBulkFault_sound _ (h.neutral (.modLink _))

theorem packetAcknowledged_sound (b : Bulk) (h : Sound m none s) : Sound m none (packetAcknowledged i b s) := by
  have h' := h.neutral (Neutral.modCtx (i := i) (fun c => { c with progress := some (b.offset + b.length) }) rfl rfl rfl rfl)
  unfold packetAcknowledged
  dsimp only
  split
  · exact reportBulkComplete_sound (h'.neutral (.modLink _))
  · exact h'.neutral ((Neutral.modLink _).trans (.send _))

theorem receiveBulk_sound (b : Bulk) (x : Option LinkFrame) (h : Sound m none s) : Sound m none (receiveBulk i b x s) := by
  unfold receiveBulk
  split
  · exact h
  · split
    · exact resendPacket_sound b h
    · split
      · exact packetAcknowledged_sound b h
      · split
        · exact h.neutral (.modLink _)
        · split
          · exact reportStall_sound _ (h.neutral (.modLink _))
          · exact resendPacket_sound b h

theorem bulkAnswerExpired_sound (h : Sound m none s) : Sound m none (bulkAnswerExpired i s) := by
  unfold bulkAnswerExpired
  split
  · exact h
  · split
    · exact h
    · exact resendPacket_sound _ h

theorem backoffExpired_sound (h : Sound m none s) : Sound m none (backoffExpired i s) := by
  unfold backoffExpired
  split
  · exact h
  · split
    · exact h
    · exact h.neutral ((Neutral.modLink _).trans (.send _))

theorem bulkWaitExpired_sound (h : Sound m none s) : Sound m none (bulkWaitExpired i s) := by
  unfold bulkWaitExpired
  split
  · exact h
  · split
    · exact h
    · exact reportBulkFault_sound _ (h.neutral (.modLink _))

/-! ### Cyclic exchange (R71, R72) -/

/-- A change of one slot's part of the map that leaves its input window. -/
theorem Sound.modMap (h : Sound m busy s) (f : SlotMap → SlotMap) (hf : m → (s.map i).Narrows (f (s.map i)))
    (input : ∀ x, (f x).input = x.input) : Sound m busy (modMap i f s) := by
  have inputs : ∀ j, ((Machine.modMap i f s).map j).input = (s.map j).input := fun j => by
    by_cases e : j = i
    · subst e; simp [input]
    · rw [modMap_map_ne _ _ e]
  refine ⟨fun j hj => ?_, by simpa [State.heldTotal] using h.committed, fun hm => (Touches.modMap f (hf hm)).windows (h.windows hm)⟩
  obtain ⟨⟨h₁, h₂, h₃, h₄, h₅, h₆, h₇, h₈⟩, hm⟩ := h.slots j hj
  refine ⟨⟨?_, ?_, ?_, ?_, ?_, ?_, ?_, ?_⟩, fun hm' => ?_⟩
  · simpa using h₁
  · simpa using h₂
  · simpa using h₃
  · simpa using h₄
  · simpa using h₅
  · simpa using h₆
  · simpa using h₇
  · simpa using h₈
  · obtain ⟨w₁, w₂, w₃, w₄⟩ := hm hm'
    constructor <;> simpa [inputs]

/-- R71: inputs are taken only of a slot that exchanges, whose windows stand. -/
theorem goodExchange_sound (inputs : Bytes) (h : Sound m none s) (state : (s.ctx i).state.exchanges = true) :
    Sound m none (goodExchange i inputs s) := by
  have input : m → (s.map i).input ≠ .vacant := fun hm e => by
    have r := (h.at i).map hm
    have live := r.live
    have draining := r.draining
    revert state live draining
    rw [e]
    cases (s.ctx i).state <;> simp [CtxState.exchanges, Window.isLive, Window.isRetiring]
  let u := modLink i (fun l => { l with input := .fresh, exchange := none }) s
  have narrows : m → (u.map i).Narrows { u.map i with latest := some inputs } := fun hm => by
    refine ⟨fun p => ?_, fun _ => id, fun _ => id⟩
    have ne : (u.map i).input ≠ .vacant := by simpa [u] using input hm
    revert p ne
    generalize u.map i = x
    obtain ⟨o, n, tables, latest, reported⟩ := x
    cases o <;> cases n <;> simp [SlotMap.paired]
  have a := h.neutral (Neutral.modLink (i := i) fun l => { l with input := .fresh, exchange := none })
  exact (a.modMap (fun x => { x with latest := some inputs }) narrows fun _ => rfl).neutral (.modCtx _ rfl rfl rfl rfl)

theorem receiveCyclic_sound (x : Option LinkFrame) (h : Sound m none s) : Sound m none (receiveCyclic i x s) := by
  unfold receiveCyclic
  split
  · next inputs e =>
    refine goodExchange_sound inputs h ?_
    unfold Slot.goodInputs at e
    split at e
    · cases e
    · split at e
      · next c => exact c.2.2.1
      · cases e
  · exact h

theorem receive_sound (message : Bytes) (h : Sound m none s) : Sound m none (receive i message s) := by
  have h' := h.neutral (Neutral.modLink (i := i) fun l => { l with receiving := false }.turn)
  unfold receive
  dsimp only
  split
  · exact h'
  · unfold deliver
    split
    · exact h'
    · exact h'
    · exact receiveEcho_sound _ h'
    · unfold receiveUp
      split
      · exact receiveBulk_sound _ _ h'
      · exact receiveControl_sound _ _ _ h'
      · exact receiveCyclic_sound _ h'

theorem turnaroundEnds_neutral (i : SlotIx) (s : State) : Neutral i s (turnaroundEnds i s) := by
  unfold turnaroundEnds
  split
  · exact .refl i s
  · split
    · dsimp only
      split
      · exact .modLink _
      · exact (Neutral.modLink _).trans ((Neutral.modLink _).trans (.modLink _))
    · exact .modLink _

theorem absenceExpired_sound (h : Sound m none s) : Sound m none (absenceExpired i s) := by
  unfold absenceExpired
  split
  · exact h
  · exact reportLinkDrop_sound (h.neutral (.modLink _))

/-! ### Presence (R33 to R36) -/

/-- A change of the presence line and its timers. -/
theorem Sound.debounce (h : Sound m busy s) (f : SlotPower → SlotPower)
    (hf : ∀ p, ∃ line debouncer present absent, f p = { p with
      line := line, debouncer := debouncer, presentTimer := present, absentTimer := absent }) : Sound m busy (modPower i f s) := by
  refine h.move (.modPower f) fun _ r => ?_
  obtain ⟨line, debouncer, present, absent, e⟩ := hf (s.slotPower i)
  obtain ⟨⟨h₁, h₂, h₃, h₄, h₅, h₆, h₇, h₈⟩, hm⟩ := r
  refine ⟨⟨?_, ?_, ?_, ?_, ?_, ?_, ?_, ?_⟩, fun hm' => ?_⟩
  · simpa [e] using h₁
  · simpa [e] using h₂
  · simpa using h₃
  · simpa using h₄
  · simpa [e] using h₅
  · simpa [e] using h₆
  · simpa [e] using h₇
  · simpa [e] using h₈
  · obtain ⟨w₁, w₂, w₃, w₄⟩ := hm hm'
    constructor <;> simpa

/-- A slot in one of the states in which it holds nothing. -/
theorem RightAt.idle (r : RightAt m i s) (state : (s.ctx i).state.idle = true) :
    Holds i false 0 [] s ∧ (m → (s.map i).input.Unclaimed) := by
  have off : (s.slotPower i).switchOn = false := r.power.switches false (by revert state; cases (s.ctx i).state <;> simp [CtxState.idle, CtxState.powered])
  have entry : (s.ctx i).entry = [] := by
    unfold Context.entry
    revert state
    cases (s.ctx i).state <;> simp [CtxState.idle]
  obtain ⟨still, held, owner⟩ := r.power.off off
  refine ⟨⟨off, still, held, entry ▸ r.power.entries, owner⟩, fun hm => (r.map hm).unclaimed ?_ ?_⟩ <;> rintro e <;> rw [e] at state <;>
    cases state

theorem examineLine_sound (h : Sound m none s) : Sound m none (examineLine i s) := by
  by_cases c : (s.ctx i).state = .empty
  · obtain ⟨holds, w⟩ := (h.at i).idle (by rw [c]; rfl)
    have e := examineLine_ends holds (by rw [c]; rfl) w
    exact h.put e.touches e.right
  · rw [examineLine, if_neg fun x => c x.2.2]
    exact h

theorem lineAsserts_sound (h : Sound m none s) : Sound m none (lineAsserts i s) := by
  unfold lineAsserts
  split
  · exact h
  · refine examineLine_sound (h.debounce _ fun p => ?_)
    unfold SlotPower.asserted
    split <;> exact ⟨_, _, _, _, rfl⟩

theorem lineDrops_sound (h : Sound m none s) : Sound m none (lineDrops i s) := by
  unfold lineDrops
  split
  · refine h.debounce _ fun p => ?_
    unfold SlotPower.dropped
    split <;> exact ⟨_, _, _, _, rfl⟩
  · exact h

theorem presentExpired_sound (h : Sound m none s) : Sound m none (presentExpired i s) := by
  unfold presentExpired
  split
  · exact h
  · exact reportPresent_sound (h.debounce _ fun p => ⟨p.line, _, _, p.absentTimer, rfl⟩)

/-- R27: *absent*. -/
theorem reportAbsent_sound (h : Sound m none s) : Sound m none (reportAbsent i s) := by
  have r := h.at i
  have h' := h.except i
  have off := r.power.isOff
  unfold reportAbsent
  split
  · exact h
  · next c =>
    obtain ⟨holds, w⟩ := r.idle (by rw [c]; rfl)
    have e := enterEmpty_ends holds w
    exact h.put e.touches e.right
  · next c =>
    refine withReleases_drains h' off fun t holds input _ => ⟨enterDraining_touches i _ t, holds.enterDraining _, ?_, ?_, fun hm => ?_⟩
    · rw [enterDraining_ctx]
    · rw [enterDraining_ctx]; simp
    · have live : (s.map i).input.isLive = true := (r.map hm).live.2 c
      rw [enterDraining_input, input]
      revert live
      cases (s.map i).input <;> simp [Window.isLive, Window.disarm, Window.retire, Window.isRetiring]
  · next c =>
    have retiring : m → (s.map i).input.isRetiring = true := fun hm => (r.map hm).draining c
    split
    · refine withReleases_drains h' off fun t holds input state => ⟨.modCtx _ rfl, holds.congr (by simp) (by simp) rfl, by simp [state, c],
        by simp, fun hm => ?_⟩
      rw [modCtx_map, input, (Window.Unclaimed.of_retiring (retiring hm)).disarm_eq]
      exact retiring hm
    · next on =>
      obtain ⟨still, held, owner⟩ := r.power.off (by simpa using on)
      have entry : (s.ctx i).entry = [] := by rw [Context.entry, c]
      have holds : Holds i false 0 [] s := ⟨by simpa using on, still, held, entry ▸ r.power.entries, owner⟩
      exact h.put (.modCtx _ rfl) (Holds.draining (holds.congr (by simp) (by simp) rfl) (by simpa using c) rfl (by simp)
        (by simpa using retiring))
  · next ne _ => exact empties_sound h' off (r.not_live ne)

theorem absentExpired_sound (h : Sound m none s) : Sound m none (absentExpired i s) := by
  unfold absentExpired
  split
  · exact h
  · exact reportAbsent_sound (h.debounce _ fun p => ⟨p.line, _, p.presentTimer, _, rfl⟩)

/-! ### Inrush (R38, R39) -/

/-- A slot that waits through what happens beside a command. -/
theorem Holds.waits (h : Holds i on d [] s) (w : Waits (some i) s t) : Holds i on d [] t := by
  have c : t.ctx i = s.ctx i := congrArg Slot.ctx (w.slot i rfl)
  have p : t.slotPower i = s.slotPower i := congrArg Slot.power (w.slot i rfl)
  exact ⟨by rw [p]; exact h.switch, by rw [p]; exact h.still, by rw [c]; exact h.held, w.entries i rfl,
    fun e => h.owner ((w.owner i rfl).1 e)⟩

theorem Holds.isOff (h : Holds i false 0 q s) : Off i s := fun _ => ⟨h.still, h.held, h.owner⟩

/-- A change of one slot's inrush, with the allowance made free. -/
theorem freed_touches (f : SlotPower → SlotPower) : Touches i s (freeAllowance i (modPower i f s)) :=
  (Touches.modPower f).trans (freeAllowance_touches i _)

/-- R38: the standby inrush completes. -/
theorem inrushComplete_sound (h : Sound m none s) (state : (s.ctx i).state = .standbyInrush) : Sound m none (inrushComplete i s) := by
  have r := h.at i
  have on := r.power.switches true (by rw [state]; rfl)
  have held : (s.ctx i).heldDraw = 150 := by rw [r.power.draws, on, if_pos rfl, Context.draw, state]
  have phase : (s.slotPower i).runPhaseTimer = none := by
    by_contra c
    have := r.power.runPhase (Option.isSome_iff_ne_none.2 c)
    rw [state] at this
    cases this
  have entries : entriesIn s.power.queue i = [] := by rw [r.power.entries, Context.entry, state]
  let f : SlotPower → SlotPower := fun p => { p with minimumTimer := none, deadlineTimer := none, goodSeen := false }
  let u := freeAllowance i (modPower i f s)
  have holds : Holds i true 150 [] u := ⟨by simpa [u, f, freeAllowance] using on, by
    refine ⟨?_, ?_, ?_, ?_⟩ <;> simp [u, f, freeAllowance, phase], by simpa [u, freeAllowance] using held, entries, freeAllowance_owner i _⟩
  refine besidePass_sound true ((h.except i).touch (freed_touches f)) (fun j e => Option.some.inj e ▸ entries) fun t ht w => ?_
  have c : t.ctx i = s.ctx i := (congrArg Slot.ctx (w.slot i rfl)).trans (modPower_ctx i i f s)
  have x : t.map i = s.map i := (congrArg Slot.map (w.slot i rfl)).trans (modPower_map i i f s)
  have holds' : Holds i true 150 [] t := holds.waits w
  rw [reportInrushComplete, if_pos (by rw [c, state])]
  let g : Context → Context := fun c => { c with state := .linkTraining, reason := none }
  have a : Sound m none (modCtx i g t) := by
    refine ht.finish (Touches.modCtx g rfl) (Holds.standby (x := .linkTraining) (holds'.congr (by simp [g]) (by simp) rfl) (by simp [g])
      (by simp) fun hm => ?_)
    rw [modCtx_map, x]
    exact (r.map hm).unclaimed (by simp [state]) (by simp [state])
  exact a.neutral (baseTraining_neutral i _)

/-- A change of the standby inrush of a slot that is in it. -/
theorem Sound.inrush (h : Sound m none s) (state : (s.ctx i).state = .standbyInrush) (f : SlotPower → SlotPower)
    (switch : (f (s.slotPower i)).switchOn = (s.slotPower i).switchOn)
    (phase : (f (s.slotPower i)).runPhaseTimer = (s.slotPower i).runPhaseTimer) : Sound m none (modPower i f s) := by
  refine h.move (.modPower f) fun _ r => ?_
  obtain ⟨⟨h₁, h₂, h₃, h₄, h₅, h₆, h₇, h₈⟩, hm⟩ := r
  refine ⟨⟨?_, ?_, ?_, ?_, ?_, ?_, ?_, ?_⟩, fun hm' => ?_⟩
  · simpa [switch] using h₁
  · simpa [switch] using h₂
  · simpa using h₃
  · simpa using h₄
  · simp [state]
  · simp [state]
  · simpa [phase] using h₇
  · simp [state]
  · obtain ⟨w₁, w₂, w₃, w₄⟩ := hm hm'
    constructor <;> simpa

theorem minimumExpired_sound (h : Sound m none s) : Sound m none (minimumExpired i s) := by
  unfold minimumExpired
  split
  · exact h
  · next c =>
    have state := (h.at i).power.deadline (.inr (by simpa [Option.isSome_iff_ne_none] using c))
    split
    · exact inrushComplete_sound h state
    · exact h.inrush state _ rfl rfl

theorem powerGoodSeen_sound (h : Sound m none s) : Sound m none (powerGoodSeen i s) := by
  unfold powerGoodSeen
  split
  · exact h
  · next c =>
    have state := (h.at i).power.deadline (.inl (by
      have := (not_or.1 c).2
      simpa [Option.isSome_iff_ne_none] using this))
    split
    · exact h.inrush state _ rfl rfl
    · exact inrushComplete_sound h state

/-- R37: what a slot holds whose switch has been turned off. -/
theorem switchOff_holds (off : Off i s) (entries : entriesIn s.power.queue i = []) : Holds i false 0 [] (switchOff i s) := by
  obtain ⟨ctx, power, -, queue, owner⟩ := switchOff_off off
  exact ⟨by rw [power]; rfl, by rw [power]; exact still_off _, by rw [ctx], by rw [queue]; exact entries, owner⟩

theorem deadlineExpired_sound (h : Sound m none s) : Sound m none (deadlineExpired i s) := by
  unfold deadlineExpired
  split
  · exact h
  · next c =>
    have r := h.at i
    have state := r.power.deadline (.inl (by simpa [Option.isSome_iff_ne_none] using c))
    have entries : entriesIn s.power.queue i = [] := by rw [r.power.entries, Context.entry, state]
    have holds := switchOff_holds r.power.isOff entries
    obtain ⟨ctx, -, map, -⟩ := switchOff_off r.power.isOff
    refine besidePass_sound true ((h.except i).touch (switchOff_touches i s)) (fun j e => Option.some.inj e ▸ holds.entries) fun t ht w => ?_
    have c : t.ctx i = _ := (congrArg Slot.ctx (w.slot i rfl)).trans ctx
    have x : t.map i = s.map i := (congrArg Slot.map (w.slot i rfl)).trans map
    rw [reportPowerGoodTimeout, if_pos (by rw [c, state])]
    exact faults_sound _ ht (holds.waits w).isOff fun hm => by rw [x]; exact r.not_live (by simp [state]) hm

/-- R22: OVERCURRENT at a context whose switch has been turned off. -/
theorem reportTrip_sound (h : Sound m (some i) s) (holds : Holds i false 0 [] s) (w : m → MapAt i s)
    (on : (s.ctx i).state.powered ≠ some false) : Sound m none (reportTrip i s) := by
  have off := holds.isOff
  have live : (s.ctx i).state ≠ .running → m → (s.map i).input.isLive = false := fun ne hm => by simpa [ne] using (w hm).live
  unfold reportTrip
  dsimp only
  split
  · next c =>
    refine withReleases_drains h off fun t holds input _ =>
      ⟨(Touches.modCtx _ rfl).trans (enterDraining_touches i _ _), Holds.enterDraining ?_ _, ?_, ?_, fun hm => ?_⟩
    · exact holds.congr (by simp) (by simp) rfl
    · rw [enterDraining_ctx]
    · rw [enterDraining_ctx]; simp
    · have live := (w hm).live.2 c
      rw [enterDraining_input, modCtx_map, input]
      revert live
      cases (s.map i).input <;> simp [Window.isLive, Window.disarm, Window.retire, Window.isRetiring]
  · next c =>
    refine h.finish (.modCtx _ rfl) (Holds.draining (holds.congr (by simp) (by simp) rfl) (by simpa using c) rfl ?_ ?_)
    · simp only [modCtx_ctx_same]
      split <;> simp_all
    · simpa using fun hm => (w hm).draining c
  · next c =>
    refine withReleases_ends h off fun t holds input => ?_
    obtain ⟨a₁, a₂, a₃, a₄⟩ := enterWithdrawn_ends (m := m) .command
      (holds.congr (t := modCtx i (fun x => { x with fault := some ((s.ctx i).record .overcurrent 0) }) t) (by simp) (by simp) rfl)
      fun hm => by rw [modCtx_map, input]; exact unclaimed_disarm (live (by simp [c]) hm)
    exact ⟨(Touches.modCtx _ rfl).trans a₁, a₂, a₃, a₄⟩
  · next c => exact absurd (by rw [c]; rfl) on
  · next c => exact absurd (by rw [c]; rfl) on
  · next c => exact absurd (by rw [c]; rfl) on
  · next c => exact absurd (by rw [c]; rfl) on
  · next c => exact absurd (by rw [c]; rfl) on
  · next ne _ _ _ _ _ _ _ => exact faults_sound _ h off (live ne)

theorem tripped_sound (h : Sound m none s) : Sound m none (tripped i s) := by
  unfold tripped
  split
  · next on =>
    have r := h.at i
    obtain ⟨ctx, power, map, -, owner⟩ := switchOff_off r.power.isOff
    have holds : Holds i false 0 [] (leaveQueue i (switchOff i s)) :=
      ⟨(congrArg SlotPower.switchOn power).trans rfl, power.symm ▸ still_off _, (congrArg Context.heldDraw ctx).trans rfl,
        entriesIn_filter_same _ _, owner⟩
    refine besidePass_sound true ((h.except i).touch ((switchOff_touches i s).trans (leaveQueue_touches i _)))
      (fun j e => Option.some.inj e ▸ holds.entries) fun t ht w => ?_
    have c : t.ctx i = { s.ctx i with heldDraw := 0 } := (congrArg Slot.ctx (w.slot i rfl)).trans ctx
    have x : t.map i = s.map i := (congrArg Slot.map (w.slot i rfl)).trans map
    refine reportTrip_sound ht (holds.waits w) (fun hm => ?_) fun e => ?_
    · obtain ⟨w₁, w₂, w₃, w₄⟩ := r.map hm
      constructor <;> rw [x, c] <;> assumption
    · rw [c] at e
      have := r.power.switches false e
      rw [on] at this
      cases this
  · exact h

theorem runPhaseExpired_sound (h : Sound m none s) : Sound m none (runPhaseExpired i s) := by
  unfold runPhaseExpired
  split
  · exact h
  · next c =>
    have r := h.at i
    have state := r.power.runPhase (by simpa [Option.isSome_iff_ne_none] using c)
    have on := r.power.switches true (by rw [state]; rfl)
    have held : (s.ctx i).heldDraw = (s.ctx i).runDraw := by rw [r.power.draws, on, if_pos rfl, Context.draw, state]; rfl
    have entries : entriesIn s.power.queue i = [] := by rw [r.power.entries, Context.entry, state]
    have other : ∀ {p : Prop}, (p → (s.ctx i).state = .standbyInrush) → ¬ p := fun hp a => by
      have := hp a
      rw [state] at this
      cases this
    have timers := not_or.1 (other r.power.deadline)
    have good := other r.power.good
    let f : SlotPower → SlotPower := fun p => { p with runPhaseTimer := none }
    let u := freeAllowance i (modPower i f s)
    have holds : Holds i true (s.ctx i).runDraw [] u := ⟨by simpa [u, f, freeAllowance] using on, by
      refine ⟨?_, ?_, ?_, ?_⟩ <;> simp [u, f, freeAllowance]
      · simpa using timers.1
      · simpa using timers.2
      · simpa using good, by simpa [u, freeAllowance] using held, entries, freeAllowance_owner i _⟩
    refine besidePass_sound true ((h.except i).touch (freed_touches f)) (fun j e => Option.some.inj e ▸ entries) fun t ht w => ?_
    have c : t.ctx i = s.ctx i := (congrArg Slot.ctx (w.slot i rfl)).trans (modPower_ctx i i f s)
    have x : t.map i = s.map i := (congrArg Slot.map (w.slot i rfl)).trans (modPower_map i i f s)
    exact runPhaseEnded_sound ht (by rw [c, state]) (by rw [c]; exact holds.waits w) fun hm => by
      rw [x]; exact (r.map hm).unclaimed (by simp [state]) (by simp [state])

/-- An event at one slot keeps the power account and the windows. -/
theorem AtSlot.sound {f : State → State} (e : AtSlot i f) (h : Sound m none s) : Sound m none (f s) := by
  cases e with
  | lineAsserts => exact lineAsserts_sound h
  | lineDrops => exact lineDrops_sound h
  | presentExpired => exact presentExpired_sound h
  | absentExpired => exact absentExpired_sound h
  | minimumExpired => exact minimumExpired_sound h
  | powerGoodSeen => exact powerGoodSeen_sound h
  | deadlineExpired => exact deadlineExpired_sound h
  | tripped => exact tripped_sound h
  | runPhaseExpired => exact runPhaseExpired_sound h
  | turnaroundEnds => exact h.neutral (turnaroundEnds_neutral i s)
  | receive x => exact receive_sound x h
  | echoWaitExpired => exact echoWaitExpired_sound h
  | attemptFailed => exact attemptFailed_sound h
  | controlAnswerExpired => exact controlAnswerExpired_sound h
  | bulkAnswerExpired => exact bulkAnswerExpired_sound h
  | backoffExpired => exact backoffExpired_sound h
  | bulkWaitExpired => exact bulkWaitExpired_sound h
  | absenceExpired => exact absenceExpired_sound h
  | modLink g => exact h.neutral (.modLink g)

end

end Sys2Proof.Machine
end

section
/-! SUPPORT. Exchanges, marks, ticks and the trunk (R70 to R72, R142 to R147, R165, R167), on the power account and the windows. -/

namespace Sys2Proof.Machine

section
variable {m : Prop} {busy : Option SlotIx} {i : SlotIx} {s t u : State}

/-! ### Exchanges -/

theorem reportLinkLost_sound (h : Sound m none s) : Sound m none (reportLinkLost i s) := by
  unfold reportLinkLost
  split
  · next c =>
    have n := raiseAttempts_neutral i s
    exact enterDraining_sound .linkLost (h.neutral n) (n.state.trans c)
  · exact h

theorem miss_sound (h : Sound m none s) : Sound m none (miss i s) := by
  have a := h.neutral ((Neutral.modLink (i := i) fun l => { l.endExchange with input := .stale }).trans
    (.modCtx (fun c => { c with missCount := min 3 (c.missCount + 1), goodRun := 0 }) rfl rfl rfl rfl))
  unfold miss
  dsimp only
  split
  · exact reportLinkLost_sound (a.neutral (.modLink _))
  · exact a

theorem concludeExchange_sound (sending : SlotIx → Bool) (i : SlotIx) (h : Sound m none s) :
    Sound m none (concludeExchange sending i s) := by
  unfold concludeExchange
  split
  · exact miss_sound (h.neutral (.modLink _))
  · exact h

theorem startBuilt_neutral (flag : OutFlag) (source : Bytes) (i : SlotIx) (s : State) : Neutral i s (startBuilt flag source i s) := by
  unfold startBuilt
  split
  · exact (Neutral.modLink _).trans (.send _)
  · exact .refl i s

theorem startHold_neutral (i : SlotIx) (s : State) : Neutral i s (startHold i s) := by
  unfold startHold
  split
  · exact (Neutral.modLink _).trans (.send _)
  · exact .refl i s

/-! ### Windows at marks and ticks (R165) -/

theorem PowerAt.same (h : PowerAt i s) (ctx : t.ctx i = s.ctx i) (power : t.slotPower i = s.slotPower i) (rack : t.power = s.power) :
    PowerAt i t := by
  obtain ⟨h₁, h₂, h₃, h₄, h₅, h₆, h₇, h₈⟩ := h
  constructor <;> simpa only [ctx, power, rack]

theorem goVacant_sound (i : SlotIx) (h : Sound m none s) : Sound m none (goVacant i s) := by
  have r := h.at i
  have a : Touches i s (modMap i (SlotMap.change Window.tick) s) := .modMap _ (narrows_change _ (by simp))
  have p : PowerAt i (modMap i (SlotMap.change Window.tick) s) := r.power.same (by simp) (by simp) rfl
  have input : ((modMap i (SlotMap.change Window.tick) s).map i).input = (s.map i).input.tick := by simp [SlotMap.change]
  unfold goVacant reportVacant
  split
  · next c =>
    rw [modMap_ctx] at c
    refine drainComplete_sound ((h.except i).touch a) p (by simpa using c) fun hm => ?_
    have retiring := (r.map hm).draining c
    rw [input]
    revert retiring
    cases (s.map i).input <;> simp [Window.isRetiring, Window.tick]
  · next c =>
    rw [modMap_ctx] at c
    refine h.put a ⟨p, fun hm => ?_⟩
    obtain ⟨w₁, w₂, -, w₄⟩ := r.map hm
    refine ⟨?_, ?_, fun e => absurd (by simpa using e) c, fun e => ?_⟩
    · rw [input, modMap_ctx, ← w₁]
      cases (s.map i).input <;> simp [Window.isArmed, Window.tick]
    · rw [input, modMap_ctx, ← w₂]
      cases (s.map i).input <;> simp [Window.isLive, Window.tick]
    · rw [input, w₄ (by simpa using e)]
      rfl

theorem goLive_sound (i : SlotIx) (h : Sound m none s) (due : ((s.map i).input.isArmed || (s.map i).output.isArmed) = true) :
    Sound m none (goLive i s) := by
  have r := h.at i
  have a : Touches i s (modMap i (SlotMap.change Window.mark) s) := .modMap _ (narrows_change _ (by simp))
  have input : ((modMap i (SlotMap.change Window.mark) s).map i).input = (s.map i).input.mark := by simp [SlotMap.change]
  have armed : m → (s.map i).input.isArmed = true := fun hm => by
    have paired := (h.windows hm).paired i
    revert due paired
    generalize s.map i = x
    obtain ⟨o, n, tables, latest, reported⟩ := x
    cases o <;> cases n <;> simp [SlotMap.paired, Window.isArmed]
  unfold goLive
  dsimp only
  split
  · next c =>
    let g : Context → Context := fun c => { c with state := .running, reason := none, missCount := 0, goodRun := 0 }
    refine h.put ((a.trans (Touches.modCtx g rfl)).trans (milestone_neutral i _).touches)
      ⟨r.power.run_move c (y := .running) (by simp) (by simp) (by simp) (by simp) (by simp) (by simp) rfl, fun hm => ?_⟩
    have live : (s.map i).input.mark.isLive = true ∧ (s.map i).input.mark.isArmed = false := by
      have := armed hm
      revert this
      cases (s.map i).input <;> simp [Window.isArmed, Window.mark, Window.isLive]
    constructor <;> rw [milestone_ctx, milestone_map, modCtx_map, input, modCtx_ctx_same] <;> simp [live]
  · next c =>
    exact h.put a ⟨r.power.same (by simp) (by simp) rfl, fun hm => absurd ((r.map hm).armed.1 (armed hm)) c⟩

theorem markWindows_sound (i : SlotIx) (h : Sound m none s) : Sound m none (markWindows i s) := by
  unfold markWindows
  split
  · next c => exact goLive_sound i h c
  · exact goVacant_sound i h

theorem recheckAfter_sound (changed : List SlotIx) (before : State) (h : Sound m none s) : Sound m none (recheckAfter changed before s) :=
  recheckIf_sound _ h

/-! ### The trunk -/

theorem Sound.modTrunk (h : Sound m busy s) (f : Trunk → Trunk) (out : (f s.trunk).outLength = s.trunk.outLength)
    (inl : (f s.trunk).inLength = s.trunk.inLength) : Sound m busy (modTrunk f s) := h.of_same (fun _ => rfl) rfl out inl

theorem startFrame_sound (h : Sound m busy s) : Sound m busy (startFrame s) := h.modTrunk _ rfl rfl

theorem kick_sound (h : Sound m busy s) : Sound m busy (kick s) := by
  unfold kick
  split
  · exact startFrame_sound h
  · exact h

theorem recordStatus_sound (h : Sound m busy s) : Sound m busy (recordStatus s) :=
  h.eachSlot fun _ _ ht => ht.modMap _ (fun _ => ⟨fun p => by simpa [SlotMap.paired] using p, fun _ => id, fun _ => id⟩) fun _ => rfl

theorem buildReturn_sound (rejected : Bool) (h : Sound m busy s) : Sound m busy (buildReturn rejected s) :=
  kick_sound ((recordStatus_sound h).modTrunk _ rfl rfl)

theorem markTrunk_sound (number : Nat) (h : Sound m busy s) : Sound m busy (markTrunk number s) := by
  unfold markTrunk
  dsimp only
  split
  · exact h.modTrunk _ rfl rfl
  · exact (h.modTrunk _ rfl rfl).post _ _

theorem cycleMark_sound (sending : SlotIx → Bool) (number : Nat) (valid : Bool) (image : Bytes) (h : Sound m none s) :
    Sound m none (cycleMark sending number valid image s) := by
  have a := (markTrunk_sound number h).eachSlot fun i _ => concludeExchange_sound sending i
  have b := recheckAfter_sound (s.slotsWhere fun x => x.map.pendingMark) (eachSlot (concludeExchange sending) (markTrunk number s))
    (a.forList (s.slotsWhere fun x => x.map.pendingMark) fun i _ => markWindows_sound i)
  unfold cycleMark
  dsimp only
  refine buildReturn_sound false (Sound.eachSlot (fun i t ht => ht.neutral (startBuilt_neutral _ _ i t)) ?_)
  exact b.of_same (fun _ => rfl) rfl rfl rfl

theorem badFrame_sound (sending : SlotIx → Bool) (h : Sound m none s) : Sound m none (badFrame sending s) := by
  have a : Sound m none (Machine.modTrunk (fun t => { t with rejected := true }) s) := h.modTrunk _ rfl rfl
  unfold badFrame
  dsimp only
  split
  · exact buildReturn_sound true a
  · exact buildReturn_sound true ((a.eachSlot fun i _ => concludeExchange_sound sending i).eachSlot fun i t ht =>
      ht.neutral (startHold_neutral i t))

theorem takeCycleFrame_sound (bs : Bytes) (sending : SlotIx → Bool) (h : Sound m none s) : Sound m none (takeCycleFrame bs sending s) := by
  unfold takeCycleFrame
  split
  · exact cycleMark_sound _ _ _ _ h
  · exact badFrame_sound _ h

theorem localTick_sound (sending : SlotIx → Bool) (h : Sound m none s) : Sound m none (localTick sending s) := by
  have a := h.eachSlot fun i _ => concludeExchange_sound sending i
  have b := recheckAfter_sound (s.slotsWhere fun x => x.map.pendingTick) (eachSlot (concludeExchange sending) s)
    (a.forList (s.slotsWhere fun x => x.map.pendingTick) fun i _ => goVacant_sound i)
  exact b.eachSlot fun i t ht => ht.neutral (startBuilt_neutral _ _ i t)

theorem tickExpired_sound (h : Sound m none s) : Sound m none (tickExpired s) := by
  unfold tickExpired
  split
  · exact h
  · exact localTick_sound _ (h.choices _)

theorem lossExpired_sound (h : Sound m none s) : Sound m none (lossExpired s) := by
  unfold lossExpired
  split
  · exact h
  · exact (h.modTrunk _ rfl rfl).post _ _

theorem gapEnds_sound (h : Sound m none s) : Sound m none (gapEnds s) := by
  unfold gapEnds
  split
  · exact startFrame_sound h
  · exact startFrame_sound h
  all_goals exact h

theorem returnSent_sound (h : Sound m none s) : Sound m none (returnSent s) := by
  unfold returnSent
  split
  · exact h.of_same (fun _ => rfl) rfl rfl rfl
  all_goals exact h

/-! ### Power-on and SEG_RESET (R2, R185) -/

/-- A state in which every slot holds nothing. -/
theorem Sound.fresh (ctx : ∀ j, s.ctx j = Context.reset) (power : ∀ j, ∃ line, s.slotPower j = SlotPower.reset line)
    (map : ∀ j, s.map j = SlotMap.reset) (committed : s.power.committed = 0) (queue : s.power.queue = []) (owner : s.power.owner = none) :
    Sound m none s := by
  refine ⟨fun j _ => ?_, ?_, fun _ => ⟨fun j => ?_, fun j w e => ?_, fun j w e => ?_, fun a b v w k _ e _ => ?_⟩⟩
  · obtain ⟨line, hp⟩ := power j
    refine Holds.idle ⟨by rw [hp]; rfl, by rw [hp]; exact ⟨rfl, rfl, rfl, rfl⟩, by rw [ctx]; rfl, by rw [queue]; rfl, by rw [owner]; simp⟩
      (by rw [ctx]; rfl) fun _ => by rw [map]; exact ⟨rfl, rfl⟩
  · simp [committed, State.heldTotal, ctx, Context.reset]
  · rw [map]; exact ⟨rfl, rfl⟩
  · rw [map] at e; cases e
  · rw [map] at e; cases e
  · rw [map] at e; cases e

theorem examineLines_sound (h : Sound m none s) : Sound m none (examineLines s) := h.eachSlot fun _ _ => examineLine_sound

theorem powerOn_sound (s : State) : Sound m none (powerOn s) := by
  unfold powerOn
  refine examineLines_sound (Sound.fresh (fun j => ?_) (fun j => ⟨(s.slotPower j).line, ?_⟩) (fun j => ?_) rfl rfl rfl) <;>
    simp [State.ctx, State.slotPower, State.map, State.slot, Slot.reset]

theorem resetBlocks_sound (s : State) : Sound m none (resetBlocks s) := by
  unfold resetBlocks
  refine Sound.post (Sound.fresh (fun j => ?_) (fun j => ⟨(s.slotPower j).line, ?_⟩) (fun j => ?_) rfl rfl rfl) _ _ <;>
    simp [State.ctx, State.slotPower, State.map, State.slot, Slot.segReset]

end

end Sys2Proof.Machine
end

section
/-! SUPPORT. The requests and every command, on the power account and the windows: O59, O60, with the base case O4. -/

namespace Sys2Proof.Machine

section
variable {m : Prop} {i : SlotIx} {s t u : State}

/-! ### The cycle configuration (R152, R154) -/

theorem find?_allSlots_none {p : SlotIx → Bool} (h : allSlots.find? p = none) (j : SlotIx) : p j = false := by
  simpa using List.find?_eq_none.1 h j (mem_allSlots j)

theorem Window.outside_false {w : Window} {n : Nat} (h : w.outside n = false) (v : Span) (hv : w.claimed = some v) :
    v.offset + v.length ≤ n := by
  simpa [Window.outside, hv, Span.finish] using h

/-- R152 step 6: a configuration that is not refused holds every ARMED or LIVE window. -/
theorem cycleRefusal_none {period outLength inLength reserve : Nat} (h : s.cycleRefusal period outLength inLength reserve = none)
    (j : SlotIx) : (s.map j).within outLength inLength := by
  have within : s.firstOutside outLength inLength = none → (s.map j).within outLength inLength := fun e => by
    rw [State.firstOutside, Option.map_eq_none_iff] at e
    have o := find?_allSlots_none e j
    rw [Bool.or_eq_false_iff] at o
    exact ⟨Window.outside_false o.1, Window.outside_false o.2⟩
  unfold State.cycleRefusal at h
  split at h
  · cases h
  · split at h
    · split at h
      · cases h
      · next c =>
        have vacant : (s.map j).output.claimed = none ∧ (s.map j).input.claimed = none := by
          have := List.any_eq_false.1 (by simpa only [Bool.not_eq_true] using c) j (mem_allSlots j)
          simpa only [Bool.not_eq_true, Bool.or_eq_false_iff, Option.isSome_eq_false_iff, Option.isNone_iff_eq_none] using this
        unfold SlotMap.within
        exact ⟨fun w e => (nomatch vacant.1.symm.trans e), fun w e => (nomatch vacant.2.symm.trans e)⟩
    · split at h
      · cases h
      · split at h
        · cases h
        · split at h
          · cases h
          · next e => exact within e

theorem segCycle_sound (period outLength inLength reserve : Nat) (h : Sound m none s) :
    Sound m none (segCycle period outLength inLength reserve s).1 := by
  unfold segCycle
  split
  · exact h
  · next e =>
    have fits := cycleRefusal_none e
    have lengths : (s.trunk.configure period outLength inLength reserve).outLength = outLength
        ∧ (s.trunk.configure period outLength inLength reserve).inLength = inLength := by
      unfold Trunk.configure
      dsimp only
      split <;> exact ⟨rfl, rfl⟩
    let f := Trunk.configure period outLength inLength reserve
    have out : (modTrunk f s).trunk.outLength = outLength := lengths.1
    have inl : (modTrunk f s).trunk.inLength = inLength := lengths.2
    refine recheckAll_sound (s := modTrunk f s) ⟨fun j _ => ⟨(h.at j).power.same rfl rfl rfl, fun hm => ?_⟩, h.committed, fun hm => ?_⟩
    · obtain ⟨w₁, w₂, w₃, w₄⟩ := (h.at j).map hm
      exact ⟨w₁, w₂, w₃, w₄⟩
    · obtain ⟨paired, -, -, apart⟩ := h.windows hm
      exact ⟨paired, fun j w c => by rw [out]; exact (fits j).1 w c, fun j w c => by rw [inl]; exact (fits j).2 w c, apart⟩

/-! ### The other requests -/

theorem segBudget_sound (budget : Nat) (h : Sound m none s) : Sound m none (segBudget budget s).1 := by
  unfold segBudget
  split
  · exact h
  · have a : Sound m none (modRack (fun p => { p with budget := budget }) s) := by
      refine h.move (i := (0 : SlotIx)) ⟨fun _ _ => rfl, fun _ _ => rfl, fun _ _ => .rfl, id, fun w =>
        w.narrow rfl rfl (fun _ => id) (fun _ _ => id) fun _ _ => id⟩ fun _ r => ⟨?_, fun hm => ?_⟩
      · obtain ⟨h₁, h₂, h₃, h₄, h₅, h₆, h₇, h₈⟩ := r.power
        exact ⟨h₁, h₂, h₃, h₄, h₅, h₆, h₇, h₈⟩
      · obtain ⟨w₁, w₂, w₃, w₄⟩ := r.map hm
        exact ⟨w₁, w₂, w₃, w₄⟩
    dsimp only
    unfold setBudget
    dsimp only
    split <;> split
    · exact (a.post _ _).pass
    · exact a.pass
    · exact a.post _ _
    · exact a

theorem performSegReset_sound (r : Request) (h : Sound m none s) : Sound m none (performSegReset r s).1 := by
  unfold performSegReset
  rcases segmentRequest_cases r (exactly 0) (fun s => (examineLines (resetBlocks s), done .none)) s with e | e
  · rw [e]; exact h
  · rw [e]
    dsimp only
    exact examineLines_sound (resetBlocks_sound s)

theorem actOnLoad_sound (r : ExpRecord) (h : Sound m none s) : Sound m none (actOnLoad i r s) := by
  unfold actOnLoad
  dsimp only
  split
  · exact h.post _ _
  · split
    · split
      · next c => exact runMatching_sound h (by rw [c]; rfl)
      · exact h
    · split
      · next c =>
        refine withdraws_sound _ (h.except i) (h.at i).power.isOff ((h.at i).not_live fun e => ?_)
        rw [e] at c
        cases c
      · exact h

theorem expLoad_sound (p : Bytes) (i : SlotIx) (h : Sound m none s) : Sound m none (expLoad p i s).1 := by
  unfold expLoad
  split
  · exact h
  · split
    · exact h
    · exact actOnLoad_sound _ (h.neutral (.setExpected _))

theorem expClear_sound (i : SlotIx) (h : Sound m none s) : Sound m none (expClear i s).1 := by
  unfold expClear
  split
  · exact h
  · split
    · exact h
    · have a : Sound m none (setExpected i none s) := h.neutral (.setExpected _)
      unfold actOnClear
      dsimp only
      split
      · exact a.post _ _
      · split
        · next c => exact runMatching_sound a (by rw [c]; rfl)
        · exact a

/-- R113: cards that are PARKED are matched again one after another: none of the matchings takes another from PARKED. -/
theorem runMatchings_sound (l : List SlotIx) (nodup : l.Nodup) (h : Sound m none s) (parked : ∀ j ∈ l, (s.ctx j).state = .parked) :
    Sound m none (l.foldl (fun t i => runMatching i t) s) := by
  induction l generalizing s with
  | nil => exact h
  | cons a l ih =>
    obtain ⟨ha, hl⟩ := List.nodup_cons.1 nodup
    refine ih hl (runMatching_sound h (by rw [parked a (List.mem_cons_self ..)]; rfl)) fun j hj => ?_
    have state := parked j (List.mem_cons_of_mem _ hj)
    have entries : entriesIn s.power.queue j = [] := by rw [(h.at j).power.entries, Context.entry, state]
    have slot : (runMatching a s).slot j = s.slot j :=
      runMatching_slot_ne (by rintro rfl; exact ha hj) (no_entry_of_entriesIn entries) (by simp [state])
    rw [State.ctx, slot]
    exact state

theorem psetClose_sound (n : SetIx) (h : Sound m none s) : Sound m none (psetClose n s).1 := by
  unfold psetClose
  split
  · exact h
  · have a : Sound m none (modStore (Store.closeSet n) s) := h.of_same (fun _ => rfl) rfl rfl rfl
    refine runMatchings_sound _ ((freeOrder_perm _ _).nodup_iff.2 (List.Nodup.filter _ (by decide))) (a.choices _) fun j hj => ?_
    have := List.mem_filter.1 ((freeOrder_perm _ _).mem_iff.1 hj)
    simp only [Slot.waitsFor, Bool.and_eq_true, decide_eq_true_eq] at this
    exact this.2.1.1

theorem release_sound (i : SlotIx) (h : Sound m none s) : Sound m none (release i s) := by
  have a : Sound m none (modCtx i (fun c => { c with hold := false }) s) := h.neutral (.modCtx _ rfl rfl rfl rfl)
  unfold release
  dsimp only
  split
  · next c =>
    split
    · exact enterRunWait_sound a c
    · exact a
  · exact tryAdmit_sound i a
  · exact a

theorem slotRestart_sound (i : SlotIx) (h : Sound m none s) : Sound m none (slotRestart i s).1 := by
  unfold slotRestart
  split
  · exact h
  · exact restarts_sound (h.except i) (h.at i).power.isOff

theorem withdraw_sound (i : SlotIx) (h : Sound m none s) : Sound m none (withdraw i s) := by
  have r := h.at i
  unfold withdraw
  split
  · exact h
  · exact h
  · exact h
  · exact h
  · next c => exact enterDraining_sound _ h c
  · next c =>
    have holds := r.power.holds (by rw [c]; simp) (by rw [c]; simp)
    rw [Context.entry, c] at holds
    let g : Context → Context := fun c => { c with reason := if c.reason = some .presenceLost then c.reason else some .command }
    refine h.put (Touches.modCtx g rfl) (Holds.draining (holds.congr (by simp) (by simp) rfl) (by simpa using c) ?_ ?_
      (by simpa using fun hm => (r.map hm).draining c))
    · rw [r.power.draws]
      simp [Context.draw, c]
    · simp only [modCtx_ctx_same]
      split <;> simp_all
  · next c =>
    obtain ⟨holds, w⟩ := r.idle (by rw [c]; rfl)
    have e := enterWithdrawn_ends .command holds w
    exact h.put e.touches e.right
  · next ne _ _ => exact withdraws_sound _ (h.except i) r.power.isOff (r.not_live ne)

/-- Every request keeps the power account and the windows. -/
theorem perform_sound (r : Request) (h : Sound m none s) : Sound m none (perform r s).1 := by
  have same : ∀ f, Sound m none (modStore f s) := fun f => h.of_same (fun _ => rfl) rfl rfl rfl
  unfold perform
  match requestName r.code with
  | none => exact h
  | some .segIdent | some .psetList | some .mapRead => exact segmentRequest_keeps (P := Sound m none) h h
  | some .expRead | some .slotRead => exact slotRequest_keeps (P := Sound m none) h fun _ => h
  | some .segCycle => exact segmentRequest_keeps (P := Sound m none) h (segCycle_sound _ _ _ _ h)
  | some .segBudget => exact segmentRequest_keeps (P := Sound m none) h (segBudget_sound _ h)
  | some .segAttn => exact segmentRequest_keeps (P := Sound m none) h (h.of_same (fun _ => rfl) rfl rfl rfl)
  | some .segReset => exact performSegReset_sound r h
  | some .expLoad => exact slotRequest_keeps (P := Sound m none) h fun i => expLoad_sound _ i h
  | some .expClear => exact slotRequest_keeps (P := Sound m none) h fun i => expClear_sound i h
  | some .psetOpen =>
    refine setRequest_keeps (P := Sound m none) h fun n => ?_
    unfold psetOpen
    split
    · exact h
    · exact same _
  | some .psetWrite =>
    refine setRequest_keeps (P := Sound m none) h fun n => ?_
    unfold psetWrite
    dsimp only
    split
    · exact h
    · split
      · exact h
      · split
        · exact h
        · exact same _
  | some .psetClose => exact setRequest_keeps (P := Sound m none) h fun n => psetClose_sound n h
  | some .psetDrop =>
    refine setRequest_keeps (P := Sound m none) h fun n => ?_
    unfold psetDrop
    split
    · exact h
    · split
      · exact h
      · exact same _
  | some .psetRead => exact setRequest_keeps (P := Sound m none) h fun n => by rw [psetRead_fst]; exact h
  | some .slotHold =>
    refine slotRequest_keeps (P := Sound m none) h fun i => ?_
    exact h.neutral (t := modCtx i (fun c => { c with hold := true }) s) (.modCtx _ rfl rfl rfl rfl)
  | some .slotRelease => exact slotRequest_keeps (P := Sound m none) h fun i => release_sound i h
  | some .slotRestart => exact slotRequest_keeps (P := Sound m none) h fun i => slotRestart_sound i h
  | some .slotWithdraw =>
    refine slotRequest_keeps (P := Sound m none) h fun i => ?_
    unfold slotWithdraw
    split
    · exact h
    · exact withdraw_sound i h
  | some .evtRead =>
    refine segmentRequest_keeps (P := Sound m none) h ?_
    unfold evtRead
    split
    · exact h
    · exact h.of_same (fun _ => rfl) rfl rfl rfl

/-! ### Every command -/

theorem executeHead_sound (h : Sound m none s) : Sound m none (executeHead s) := by
  unfold executeHead
  split
  · exact h
  · split
    · exact (perform_sound _ h).of_same (fun _ => rfl) rfl rfl rfl
    · exact h

theorem arrive_sound (r : Request) (h : Sound m none s) : Sound m none (arrive r s) := by
  have joined : Sound m none (joinQueue r s) := h.of_same (fun _ => rfl) rfl rfl rfl
  unfold arrive
  refine kick_sound ?_
  split
  · split
    · exact executeHead_sound joined
    · exact joined
  · exact h.of_same (fun _ => rfl) rfl rfl rfl

theorem takeFrame_sound (bs : Bytes) (h : Sound m none s) : Sound m none (takeFrame bs s) := by
  unfold takeFrame
  dsimp only
  split
  · exact takeCycleFrame_sound _ _ (h.choices _)
  · unfold takeServiceFrame
    split
    · exact h
    · exact arrive_sound _ h
  · exact h

theorem responseSent_sound (h : Sound m none s) : Sound m none (responseSent s) := by
  unfold responseSent
  split
  · exact executeHead_sound (h.of_same (fun _ => rfl) rfl rfl rfl)
  · exact h.of_same (fun _ => rfl) rfl rfl rfl
  · exact h

/-- Every step keeps the power account, and where `m` asks for it the windows with it. -/
theorem Sound.step (h : Sound m none s) (e : step s = .next t) : Sound m none t :=
  step_keeps (P := Sound m none) (fun _ _ h => h.of_same (fun _ => rfl) rfl rfl rfl)
    (fun c s h => exec_induction (powerOn_sound s) (fun r => arrive_sound r h) (fun bs => takeFrame_sound bs h) (lossExpired_sound h)
      (tickExpired_sound h) (gapEnds_sound h) (returnSent_sound h) (responseSent_sound h) (fun _ _ event => event.sound h) c) h e

end

/-- Settles O59: each operation moves one slot between the states of its table, and gives up or takes what the states say. -/
theorem everyStepKeepsThePowerAccount : Obligations.EveryStepKeepsThePowerAccount := by
  unfold Obligations.EveryStepKeepsThePowerAccount
  exact fun _ _ h e => (h.sound.step e).powerOk

/-- Settles O60: the same walk over the operations, with the windows in it. -/
theorem everyStepKeepsTheMap : Obligations.EveryStepKeepsTheMap := by
  unfold Obligations.EveryStepKeepsTheMap
  exact fun _ _ p h e => ((h.sound p).step e).mapOk trivial

/-- At power-on no slot holds anything. -/
theorem reset_sound (m : Prop) : Sound m none State.reset := by
  refine Sound.fresh (fun j => ?_) (fun j => ⟨false, ?_⟩) (fun j => ?_) rfl rfl rfl <;>
    simp [State.ctx, State.slotPower, State.map, State.slot, State.reset, Slot.reset]

theorem reset_requestsOk : RequestsOk State.reset := by
  constructor <;> simp [State.reset]

/-- Settles O4: at reset every block is in the pool, no slot holds anything and nothing is queued. -/
theorem resetMeetsTheInvariants : Obligations.ResetMeetsTheInvariants := by
  unfold Obligations.ResetMeetsTheInvariants
  exact ⟨reset_requestsOk, reset_storeOk, (reset_sound False).powerOk, (reset_sound True).mapOk trivial⟩

end Sys2Proof.Machine
end

section
/-! SUPPORT. What a request does, it does whatever waits behind it (R177): no operation reads the request block, so each commutes with a
change of it. -/

namespace Sys2Proof.Machine

section
variable (g : RequestBlock → RequestBlock) (i : SlotIx) (s : State)

/-! ### The plain updates -/

@[simp] theorem modCtx_modRequests (f : Context → Context) : modCtx i f (modRequests g s) = modRequests g (modCtx i f s) := rfl
@[simp] theorem modLink_modRequests (f : LinkEngine → LinkEngine) :
    modLink i f (modRequests g s) = modRequests g (modLink i f s) := rfl
@[simp] theorem modPower_modRequests (f : SlotPower → SlotPower) :
    modPower i f (modRequests g s) = modRequests g (modPower i f s) := rfl
@[simp] theorem modMap_modRequests (f : SlotMap → SlotMap) : modMap i f (modRequests g s) = modRequests g (modMap i f s) := rfl
@[simp] theorem setExpected_modRequests (r : Option ExpRecord) :
    setExpected i r (modRequests g s) = modRequests g (setExpected i r s) := rfl
@[simp] theorem modRack_modRequests (f : PowerBlock → PowerBlock) : modRack f (modRequests g s) = modRequests g (modRack f s) := rfl
@[simp] theorem modTrunk_modRequests (f : Trunk → Trunk) : modTrunk f (modRequests g s) = modRequests g (modTrunk f s) := rfl
@[simp] theorem modStore_modRequests (f : Store → Store) : modStore f (modRequests g s) = modRequests g (modStore f s) := rfl
@[simp] theorem modEvents_modRequests (f : EventBlock → EventBlock) :
    modEvents f (modRequests g s) = modRequests g (modEvents f s) := rfl
@[simp] theorem post_modRequests (o : Option SlotIx) (b : EventBody) : post o b (modRequests g s) = modRequests g (post o b s) := rfl
theorem choices_modRequests (n : Nat) :
    ({ modRequests g s with choices := n } : State) = modRequests g { s with choices := n } := rfl

theorem admission_modRequests : (modRequests g s).admission i = s.admission i := rfl

/-! ### Passes -/

theorem passOver_modRequests (e : PowerEntry) : passOver e (modRequests g s) = modRequests g (passOver e s) := by
  unfold passOver
  split <;> rfl

@[simp] theorem send_modRequests (x : NextSend) : send i x (modRequests g s) = modRequests g (send i x s) := by
  unfold send
  rw [apply_ite (modRequests g)]
  rfl

theorem grant_modRequests (e : PowerEntry) : grant e (modRequests g s) = modRequests g (grant e s) := by
  unfold grant
  dsimp only
  split
  · rfl
  · exact send_modRequests g e.slot (modCtx e.slot (fun c => { c with state := .runInrush, reason := none, heldDraw := c.runDraw })
      (modRack (fun p => { p with committed := p.committed + e.increase, owner := some e.slot }) (leaveQueue e.slot s))) _

theorem examine_modRequests (l : List PowerEntry) : examine l (modRequests g s) = modRequests g (examine l s) := by
  induction l generalizing s with
  | nil => rfl
  | cons e l ih =>
    simp only [examine, grant_modRequests, passOver_modRequests, ih, apply_ite (modRequests g)]
    rfl

@[simp] theorem pass_modRequests : pass (modRequests g s) = modRequests g (pass s) := by
  simp only [pass, examine_modRequests, apply_ite (modRequests g)]
  rfl

theorem enterRunWait_modRequests : enterRunWait i (modRequests g s) = modRequests g (enterRunWait i s) :=
  pass_modRequests g (queued i .run ((s.ctx i).runDraw - Config.standbyDraw)
    (modCtx i (fun c => { c with state := .runWait, reason := none }) s))

@[simp] theorem holdPointOne_modRequests : holdPointOne i (modRequests g s) = modRequests g (holdPointOne i s) := by
  simp only [holdPointOne, enterRunWait_modRequests, apply_ite (modRequests g)]
  rfl

/-! ### Re-checks -/

theorem refuseAdmission_modRequests (r : Refused) : refuseAdmission i r (modRequests g s) = modRequests g (refuseAdmission i r s) := by
  unfold refuseAdmission
  simp only [apply_ite (modRequests g)]
  rfl

theorem tryAdmit_modRequests : tryAdmit i (modRequests g s) = modRequests g (tryAdmit i s) := by
  simp only [tryAdmit, admission_modRequests, refuseAdmission_modRequests, modCtx_modRequests, send_modRequests,
    apply_ite (modRequests g)]
  cases s.admission i <;> rfl

theorem foldl_modRequests {α : Type} {act : State → α → State} (hact : ∀ s a, act (modRequests g s) a = modRequests g (act s a))
    (l : List α) : l.foldl act (modRequests g s) = modRequests g (l.foldl act s) := by
  induction l generalizing s with
  | nil => rfl
  | cons a l ih => rw [List.foldl_cons, List.foldl_cons, hact, ih]

theorem forList_modRequests {act : SlotIx → State → State} (hact : ∀ i s, act i (modRequests g s) = modRequests g (act i s))
    (l : List SlotIx) : forList l act (modRequests g s) = modRequests g (forList l act s) :=
  foldl_modRequests g { s with choices := s.choices + 1 } (fun s i => hact i s) _

@[simp] theorem recheckAll_modRequests : recheckAll (modRequests g s) = modRequests g (recheckAll s) :=
  forList_modRequests g s (fun i s => tryAdmit_modRequests g i s) _

theorem recheckIf_modRequests (due : Bool) : recheckIf due (modRequests g s) = modRequests g (recheckIf due s) := by
  simp only [recheckIf, recheckAll_modRequests, apply_ite (modRequests g)]

theorem besidePass_modRequests (due : Bool) {report : State → State}
    (hr : ∀ s, report (modRequests g s) = modRequests g (report s)) :
    besidePass due report (modRequests g s) = modRequests g (besidePass due report s) := by
  simp only [besidePass, eitherOrder, choices_modRequests, pass_modRequests, hr, apply_ite (modRequests g)]
  rfl

/-! ### Switch-off with releases -/

theorem switchOff_modRequests : switchOff i (modRequests g s) = modRequests g (switchOff i s) := by
  simp only [switchOff, apply_ite (modRequests g)]
  rfl

theorem unpin_modRequests : unpin i (modRequests g s) = modRequests g (unpin i s) := by
  unfold unpin
  rw [modRequests_ctx]
  cases (s.ctx i).pinned <;> rfl

theorem releases_modRequests : releases i (modRequests g s) = modRequests g (releases i s) := by
  have left : leaveQueue i (modRequests g s) = modRequests g (leaveQueue i s) := rfl
  unfold releases
  rw [left, switchOff_modRequests, unpin_modRequests]
  rfl

theorem withReleases_modRequests {finish : State → State} (hf : ∀ s, finish (modRequests g s) = modRequests g (finish s)) :
    withReleases i finish (modRequests g s) = modRequests g (withReleases i finish s) := by
  unfold withReleases
  rw [releases_modRequests]
  exact besidePass_modRequests g (releases i s) _ fun t => by rw [hf, recheckIf_modRequests]

theorem enterWithdrawn_modRequests (r : Reason) : enterWithdrawn i r (modRequests g s) = modRequests g (enterWithdrawn i r s) := by
  rfl

/-! ### Matching -/

theorem park_modRequests (reason : Reason) (result : MatchResult) (position : Option Nat) (outcome : SetOutcome) (count : Nat) :
    park i reason result position outcome count (modRequests g s)
      = modRequests g (park i reason result position outcome count s) := by
  simp only [park, apply_ite (modRequests g)]
  rfl

theorem goForward_modRequests (result : MatchResult) (layout : Layout) (rate : RateCode) (onRelease : Bool) (count : Nat) :
    goForward i result layout rate onRelease count (modRequests g s)
      = modRequests g (goForward i result layout rate onRelease count s) := by
  have f : forwarded i result layout rate onRelease count (modRequests g s)
      = modRequests g (forwarded i result layout rate onRelease count s) := by
    unfold forwarded pinFor
    cases layout.set <;> rfl
  simp only [goForward_eq, f, holdPointOne_modRequests, send_modRequests, apply_ite (modRequests g)]

/-- R107: what the outcome of a matching does to the context. -/
def endMatching (i : SlotIx) (onRelease : Bool) (o : MatchOutcome) (s : State) : State :=
  match o with
  | .parked reason result position outcome count => park i reason result position outcome count s
  | .forward result layout rate count => goForward i result layout rate onRelease count s

theorem runMatching_unidentified {i : SlotIx} {s : State} (h : (s.ctx i).identity = none) : runMatching i s = s := by
  rw [runMatching, h]

/-- R101: a slot whose record is DISABLED is withdrawn; any other is judged by what it holds. -/
theorem runMatching_identified {i : SlotIx} {s : State} {c : Identity} (h : (s.ctx i).identity = some c) :
    runMatching i s =
      if (s.expected i).all ExpRecord.enabled then
        endMatching i ((s.expected i).any fun r => decide (r.admitMode = .onRelease)) (matchCard s.store.isClosed c (s.expected i)) s
      else withReleases i (enterWithdrawn i .disabled) s := by
  rw [runMatching, h]
  cases s.expected i <;> rfl

theorem endMatching_modRequests (onRelease : Bool) (o : MatchOutcome) :
    endMatching i onRelease o (modRequests g s) = modRequests g (endMatching i onRelease o s) := by
  cases o with
  | parked => exact park_modRequests ..
  | forward => exact goForward_modRequests ..

theorem runMatching_modRequests : runMatching i (modRequests g s) = modRequests g (runMatching i s) := by
  cases h : (s.ctx i).identity with
  | none => rw [runMatching_unidentified h, runMatching_unidentified (s := modRequests g s) h]
  | some c =>
    rw [runMatching_identified h, runMatching_identified (s := modRequests g s) h, endMatching_modRequests,
      withReleases_modRequests g i s fun t => enterWithdrawn_modRequests g i t .disabled, apply_ite (modRequests g)]
    rfl

/-! ### SEG_RESET -/

theorem examineLines_modRequests : examineLines (modRequests g s) = modRequests g (examineLines s) := by
  refine foldl_modRequests g s (fun s i => ?_) _
  unfold examineLine
  rw [apply_ite (modRequests g)]
  rfl

/-! ### Every request (R177, R178) -/

/-- An execution that does the same whatever waits. -/
def Answers (f : State → State × Answer) : Prop := ∀ g s, f (modRequests g s) = (modRequests g (f s).1, (f s).2)

end

/-! ### The checks -/

theorem answers_segmentRequest (r : Request) (ok : Nat → Bool) {act : State → State × Answer} (h : Answers act) :
    Answers (segmentRequest r ok act) := by
  intro g s
  unfold segmentRequest
  split
  · rfl
  · split
    · rfl
    · exact h g s

theorem answers_slotRequest (r : Request) (ok : Nat → Bool) {act : SlotIx → State → State × Answer} (h : ∀ i, Answers (act i)) :
    Answers (slotRequest r ok act) := by
  intro g s
  unfold slotRequest
  split
  · rfl
  · split
    · rfl
    · exact h _ g s

theorem answers_setRequest (r : Request) (ok : Nat → Bool) {act : SetIx → State → State × Answer} (h : ∀ n, Answers (act n)) :
    Answers (setRequest r ok act) := by
  intro g s
  unfold setRequest
  split
  · rfl
  · split
    · rfl
    · exact h _ g s

/-! ### Each request -/

theorem answers_segCycle (period outLength inLength reserve : Nat) : Answers (segCycle period outLength inLength reserve) := by
  intro g s
  have e : (modRequests g s).cycleRefusal period outLength inLength reserve = s.cycleRefusal period outLength inLength reserve := rfl
  unfold segCycle
  rw [e]
  cases s.cycleRefusal period outLength inLength reserve with
  | some a => rfl
  | none => simp only [modTrunk_modRequests, recheckAll_modRequests]

theorem setBudget_modRequests (g : RequestBlock → RequestBlock) (budget : Nat) (s : State) :
    setBudget budget (modRequests g s) = modRequests g (setBudget budget s) := by
  by_cases above : s.power.committed > budget <;> by_cases raised : s.power.budget < budget <;>
    simp [setBudget, above, raised]

theorem answers_segBudget (budget : Nat) : Answers (segBudget budget) := by
  intro g s
  unfold segBudget
  split
  · rfl
  · dsimp only
    rw [setBudget_modRequests]
    rfl

theorem actOnLoad_modRequests (g : RequestBlock → RequestBlock) (i : SlotIx) (r : ExpRecord) (s : State) :
    actOnLoad i r (modRequests g s) = modRequests g (actOnLoad i r s) := by
  simp only [actOnLoad, runMatching_modRequests, withReleases_modRequests g i s fun t => enterWithdrawn_modRequests g i t .disabled,
    apply_ite (modRequests g)]
  rfl

theorem answers_expLoad (p : Bytes) (i : SlotIx) : Answers (expLoad p i) := by
  intro g s
  unfold expLoad
  split
  · rfl
  · rw [modRequests_ctx]
    split
    · rfl
    · dsimp only
      rw [setExpected_modRequests, actOnLoad_modRequests]

theorem answers_expClear (i : SlotIx) : Answers (expClear i) := by
  intro g s
  have act : ∀ t, actOnClear i (modRequests g t) = modRequests g (actOnClear i t) := fun t => by
    simp only [actOnClear, runMatching_modRequests, apply_ite (modRequests g)]
    rfl
  unfold expClear
  rw [modRequests_ctx, modRequests_expected]
  split
  · rfl
  · split
    · rfl
    · rw [setExpected_modRequests, act]

theorem answers_psetClose (n : SetIx) : Answers (psetClose n) := by
  intro g s
  unfold psetClose
  rw [modRequests_store]
  split
  · rfl
  · dsimp only
    rw [modStore_modRequests, forList_modRequests g _ fun i s => runMatching_modRequests g i s]
    rfl

theorem release_modRequests (g : RequestBlock → RequestBlock) (i : SlotIx) (s : State) :
    release i (modRequests g s) = modRequests g (release i s) := by
  unfold release
  simp only [modCtx_modRequests, modRequests_ctx, modRequests_link, enterRunWait_modRequests, tryAdmit_modRequests]
  split
  · split <;> rfl
  · rfl
  · rfl

theorem answers_slotRestart (i : SlotIx) : Answers (slotRestart i) := by
  intro g s
  unfold slotRestart
  rw [modRequests_ctx, withReleases_modRequests g i s (finish := restartSettling i) fun _ => rfl]
  split <;> rfl

theorem withdraw_modRequests (g : RequestBlock → RequestBlock) (i : SlotIx) (s : State) :
    withdraw i (modRequests g s) = modRequests g (withdraw i s) := by
  unfold withdraw
  rw [modRequests_ctx, withReleases_modRequests g i s fun t => enterWithdrawn_modRequests g i t .command]
  cases (s.ctx i).state <;> rfl

/-- R125: the answer, in the order of its checks. -/
theorem psetRead_eq (offset length : Nat) (n : SetIx) (s : State) : psetRead offset length n s = (s,
    if (s.store.set n).state = .free then refuse .state
    else if length > 512 then refuseRange 1
    else if offset + length > (s.store.set n).length then refuseRange 0
    else done (.bytes (s.store.bytesOf n offset length))) := by
  simp only [psetRead, apply_ite (Prod.mk s)]

/-- R177: what a request does, and what it is answered, does not depend on what waits. -/
theorem perform_answers (r : Request) : Answers (perform r) := by
  intro g s
  unfold perform
  match requestName r.code with
  | none => rfl
  | some .segIdent => exact answers_segmentRequest r _ (fun _ _ => rfl) g s
  | some .segCycle => exact answers_segmentRequest r _ (answers_segCycle _ _ _ _) g s
  | some .segBudget => exact answers_segmentRequest r _ (answers_segBudget _) g s
  | some .segAttn => exact answers_segmentRequest r _ (fun _ _ => rfl) g s
  | some .segReset =>
    refine answers_segmentRequest r _ (fun g s => ?_) g s
    have blocks : resetBlocks (modRequests g s) = modRequests g (resetBlocks s) := rfl
    rw [blocks, examineLines_modRequests]
  | some .expLoad => exact answers_slotRequest r _ (answers_expLoad _) g s
  | some .expClear => exact answers_slotRequest r _ answers_expClear g s
  | some .expRead => exact answers_slotRequest r _ (fun _ _ _ => rfl) g s
  | some .psetOpen =>
    refine answers_setRequest r _ (fun n g s => ?_) g s
    unfold psetOpen
    rw [modRequests_store]
    split <;> rfl
  | some .psetWrite =>
    refine answers_setRequest r _ (fun n g s => ?_) g s
    by_cases opened : (s.store.set n).state = .opened
    · rcases Nat.lt_or_ge 4096 ((s.store.set n).length + r.payload.length) with long | fits
      · rw [psetWrite_of_tooLong (s := s) _ opened long, psetWrite_of_tooLong (s := modRequests g s) _ opened long]
      · rcases Nat.lt_or_ge s.store.pool.length ((s.store.set n).blocksNeeded r.payload) with short | space
        · rw [psetWrite_of_noSpace (s := s) _ opened fits short, psetWrite_of_noSpace (s := modRequests g s) _ opened fits short]
        · rw [psetWrite_of_fits (s := s) _ opened fits space, psetWrite_of_fits (s := modRequests g s) _ opened fits space]
          rfl
    · rw [psetWrite_of_notOpen (s := s) _ opened, psetWrite_of_notOpen (s := modRequests g s) _ opened]
  | some .psetClose => exact answers_setRequest r _ answers_psetClose g s
  | some .psetDrop =>
    refine answers_setRequest r _ (fun n g s => ?_) g s
    unfold psetDrop
    rw [modRequests_store]
    split
    · rfl
    · split <;> rfl
  | some .psetRead =>
    refine answers_setRequest r _ (fun n g s => ?_) g s
    rw [psetRead_eq, psetRead_eq]
    rfl
  | some .psetList => exact answers_segmentRequest r _ (fun _ _ => rfl) g s
  | some .slotRead => exact answers_slotRequest r _ (fun _ _ _ => rfl) g s
  | some .slotHold => exact answers_slotRequest r _ (fun _ _ _ => rfl) g s
  | some .slotRelease =>
    refine answers_slotRequest r _ (fun i g s => ?_) g s
    rw [release_modRequests]
  | some .slotRestart => exact answers_slotRequest r _ answers_slotRestart g s
  | some .slotWithdraw =>
    refine answers_slotRequest r _ (fun i g s => ?_) g s
    unfold slotWithdraw
    rw [modRequests_ctx, withdraw_modRequests]
    split <;> rfl
  | some .mapRead => exact answers_segmentRequest r _ (fun _ _ => rfl) g s
  | some .evtRead =>
    refine answers_segmentRequest r _ (fun g s => ?_) g s
    unfold evtRead
    split <;> rfl

end Sys2Proof.Machine
end

section
/-! SUPPORT. A request at a quiet queue is executed and answered at once (R177, R180), the checks of R178, and what joins the queue
(R175, R176). -/

namespace Sys2Proof.Machine

/-! ### A request at a quiet queue -/

section
variable {s : State}

theorem State.quiet.performed (hs : s.quiet) (r : Request) : (perform r s).1.quiet := by
  have requests := (perform_serves r s).requests
  have transmitter := perform_transmitter r s
  rw [SameTransmitter] at transmitter
  refine ⟨by rw [requests]; exact hs.1, fun free => ?_⟩
  rw [transmitter] at free
  rw [requests]
  exact hs.2 free

/-- The request at a quiet queue is the whole queue, so a SEG_RESET has nothing to discard either. -/
theorem arrive_quiet (hs : s.quiet) (r : Request) : arrive r s = (perform r s).1.answered r (perform r s).2 := by
  have head : (joinQueue r s).requests.queue = [{ request := r, state := .waiting }] := by
    simp [joinQueue, modRequests, hs.1]
  have joined : perform r (joinQueue r s) = (joinQueue r (perform r s).1, (perform r s).2) := perform_answers r _ s
  have alone : (perform r s).1.requests.queue = [] := (hs.performed r).1
  have executed : executeHead (joinQueue r s)
      = modRequests (answerHead (perform r s).2) (joinQueue r (perform r s).1) := by
    rw [executeHead, head]
    dsimp only
    rw [joined]
    dsimp only
    split
    · simp [modRequests, joinQueue, answerHead, discardRest, discardEntries, alone]
    · rfl
  simp [arrive, hs.1, executed, kick_answerHead _ (hs.performed r), Config.requestCapacity]

/-- A code that no name has names no request. -/
theorem requestName_none {code : Byte} (other : ∀ name : RequestName, code ≠ name.code) : requestName code = none :=
  (if_neg (other .segIdent)).trans <| (if_neg (other .segCycle)).trans <| (if_neg (other .segBudget)).trans <| (if_neg
  (other .segAttn)).trans <| (if_neg (other .segReset)).trans <| (if_neg (other .expLoad)).trans <| (if_neg (other
  .expClear)).trans <| (if_neg (other .expRead)).trans <| (if_neg (other .psetOpen)).trans <| (if_neg (other
  .psetWrite)).trans <| (if_neg (other .psetClose)).trans <| (if_neg (other .psetDrop)).trans <| (if_neg (other
  .psetRead)).trans <| (if_neg (other .psetList)).trans <| (if_neg (other .slotRead)).trans <| (if_neg (other
  .slotHold)).trans <| (if_neg (other .slotRelease)).trans <| (if_neg (other .slotRestart)).trans <| (if_neg (other
  .slotWithdraw)).trans <| (if_neg (other .mapRead)).trans <| if_neg (other .evtRead)

theorem code_of_requestName {code : Byte} {name : RequestName} (h : requestName code = some name) : name.code = code := by
  by_cases named : ∃ other : RequestName, code = other.code
  · obtain ⟨other, rfl⟩ := named
    rw [requestName_code] at h
    cases h
    rfl
  · rw [requestName_none fun other e => named ⟨other, e⟩] at h
    cases h

theorem exec_requestCommand (r : Request) (s : State) : exec r.command s = .next (arrive r s) := by
  unfold Request.command
  cases h : requestName r.code with
  | none => rfl
  | some name => rw [exec_command, requestWith, code_of_requestName h]

theorem exec_requestCommand_quiet (hs : s.quiet) (r : Request) :
    exec r.command s = .next ((perform r s).1.answered r (perform r s).2) := by
  rw [exec_requestCommand, arrive_quiet hs]

/-- A row of the table of requests at a quiet queue, by the execution of its request in the state as it stands. -/
theorem exec_row {name : RequestName} {tag target : Byte} {payload : Bytes} {t : State} {a : Answer} (hs : s.quiet)
    (h : perform (requestFor name tag target payload) s = (t, a)) :
    exec (name.command tag target (BitVec.ofNat 16 payload.length) payload) s
      = .next (t.answered (requestFor name tag target payload) a) := by
  rw [exec_command]
  rw [show requestWith name.code tag target (BitVec.ofNat 16 payload.length) payload = requestFor name tag target payload from rfl,
    arrive_quiet hs, h]

end

/-! ### The checks of a request (R178, R179) -/

/-- A request is refused for its target, and then for its length, before anything else happens. -/
structure Checked (kind : TargetKind) (lengthOk : Prop) (r : Request) (s : State) (result : State × Answer) : Prop where
  target : ¬ kind.accepts r.target → result = (s, refuse .badTarget)
  length : kind.accepts r.target → r.length.toNat ≠ r.payload.length ∨ 512 < r.length.toNat ∨ ¬ lengthOk →
    result = (s, refuse .badLength)

theorem lengthAgrees_false_iff (r : Request) (ok : Nat → Bool) :
    (r.lengthAgrees = false ∨ ok r.payload.length = false)
      ↔ (r.length.toNat ≠ r.payload.length ∨ 512 < r.length.toNat ∨ ¬ ok r.payload.length = true) := by
  simp only [Request.lengthAgrees, decide_eq_false_iff_not, not_and_or, Nat.not_le, Bool.not_eq_true, ne_eq, or_assoc]

section
variable (r : Request) (ok : Nat → Bool) (s : State)

theorem segmentRequest_checked (act : State → State × Answer) :
    Checked .segment (ok r.payload.length = true) r s (segmentRequest r ok act s) where
  target bad := by
    have other : segmentTarget r.target = false := decide_eq_false_iff_not.mpr bad
    rw [segmentRequest, if_pos other]
  length good wrong := by
    have named : ¬ segmentTarget r.target = false := fun other => absurd good (decide_eq_false_iff_not.mp other)
    rw [segmentRequest, if_neg named, if_pos ((lengthAgrees_false_iff r ok).mpr wrong)]

theorem slotRequest_checked (act : SlotIx → State → State × Answer) :
    Checked .slot (ok r.payload.length = true) r s (slotRequest r ok act s) where
  target bad := by
    have none : slotTarget r.target = none := dif_neg bad
    rw [slotRequest, none]
  length good wrong := by
    have named : slotTarget r.target = some ⟨r.target.toNat, good⟩ := dif_pos good
    rw [slotRequest, named]
    exact if_pos ((lengthAgrees_false_iff r ok).mpr wrong)

theorem setRequest_checked (act : SetIx → State → State × Answer) :
    Checked .set (ok r.payload.length = true) r s (setRequest r ok act s) where
  target bad := by
    have none : setTarget r.target = none := dif_neg bad
    rw [setRequest, none]
  length good wrong := by
    have named : setTarget r.target = some ⟨r.target.toNat, good⟩ := dif_pos good
    rw [setRequest, named]
    exact if_pos ((lengthAgrees_false_iff r ok).mpr wrong)

end

theorem Checked.congr {kind : TargetKind} {p q : Prop} {r : Request} {s : State} {result : State × Answer}
    (h : Checked kind p r s result) (e : p ↔ q) : Checked kind q r s result := by
  rwa [propext e] at h

theorem exactly_eq_true (n k : Nat) : exactly n k = true ↔ k = n := decide_eq_true_iff

/-- R179, R202: the length R179 gives EXP_LOAD is the one its two counts imply. -/
theorem expLoad_acceptsLength (p : Bytes) : RequestName.expLoad.acceptsLength p ↔ p.length = loadImpliedLength p := by
  have place : loadBaseAt p + 4 = 14 + 8 * byteAt p 9 := by
    simp only [loadBaseAt, loadSubstitutes]
    omega
  rw [loadImpliedLength, loadSubs, place, loadSubstitutes, RequestName.acceptsLength]

theorem perform_checked {r : Request} {name : RequestName} (h : requestName r.code = some name) (s : State) :
    Checked name.targetKind (name.acceptsLength r.payload) r s (perform r s) := by
  unfold perform
  rw [h]
  cases name
  case expLoad => 
    exact (slotRequest_checked r _ s _).congr (decide_eq_true_iff.trans (expLoad_acceptsLength r.payload).symm)
  case psetWrite => exact (setRequest_checked r _ s _).congr decide_eq_true_iff
  case segIdent | segCycle | segBudget | segAttn | segReset | psetList | mapRead | evtRead =>
    exact (segmentRequest_checked r _ s _).congr (exactly_eq_true _ _)
  case expClear | expRead | slotRead | slotHold | slotRelease | slotRestart | slotWithdraw =>
    exact (slotRequest_checked r _ s _).congr (exactly_eq_true _ _)
  case psetOpen | psetClose | psetDrop | psetRead => exact (setRequest_checked r _ s _).congr (exactly_eq_true _ _)

theorem perform_unknown {r : Request} (h : requestName r.code = none) (s : State) : perform r s = (s, refuse .unknown) := by
  rw [perform, h]

/-- A result that, unless it is DONE, is the state as it was, and carries a payload with TIMING and BOUNDS alone (R180). -/
structure Refuses (s : State) (result : State × Answer) : Prop where
  unchanged : result.2.completion ≠ .done → result.1 = s
  payload : result.2.completion ≠ .done → result.2.completion ≠ .timing → result.2.completion ≠ .bounds → result.2.payload = .none

theorem Refuses.done (s t : State) (p : Payload) : Refuses s (t, done p) := ⟨fun h => absurd rfl h, fun h => absurd rfl h⟩

theorem Refuses.refuse (s : State) (c : Completion) : Refuses s (s, refuse c) := ⟨fun _ => rfl, fun _ _ _ => rfl⟩

theorem Refuses.range (s : State) (k : Nat) : Refuses s (s, refuseRange k) := ⟨fun _ => rfl, fun _ _ _ => rfl⟩

section
variable {r : Request} {ok : Nat → Bool} {s : State}

theorem Refuses.segment {act : State → State × Answer} (h : Refuses s (act s)) : Refuses s (segmentRequest r ok act s) := by
  unfold segmentRequest
  split
  · exact .refuse s _
  · split
    · exact .refuse s _
    · exact h

theorem Refuses.slot {act : SlotIx → State → State × Answer} (h : ∀ i, Refuses s (act i s)) :
    Refuses s (slotRequest r ok act s) := by
  unfold slotRequest
  split
  · exact .refuse s _
  · split
    · exact .refuse s _
    · exact h _

theorem Refuses.set {act : SetIx → State → State × Answer} (h : ∀ n, Refuses s (act n s)) :
    Refuses s (setRequest r ok act s) := by
  unfold setRequest
  split
  · exact .refuse s _
  · split
    · exact .refuse s _
    · exact h _

end

/-- What SEG_CYCLE refuses with carries data only as TIMING and BOUNDS. -/
theorem Refuses.cycle {s : State} {p o i g : Nat} {a : Answer} (h : s.cycleRefusal p o i g = some a) : Refuses s (s, a) := by
  refine ⟨fun _ => rfl, fun _ noTiming noBounds => ?_⟩
  unfold State.cycleRefusal at h
  split at h
  · cases h; rfl
  · split at h
    · split at h <;> cases h
      rfl
    · split at h
      · cases h; exact absurd rfl noTiming
      · split at h
        · cases h; exact absurd rfl noTiming
        · split at h
          · cases h; exact absurd rfl noBounds
          · obtain ⟨j, -, rfl⟩ := Option.map_eq_some_iff.mp h
            exact absurd rfl noTiming

theorem perform_refuses (r : Request) (s : State) : Refuses s (perform r s) := by
  unfold perform
  match requestName r.code with
  | none => exact .refuse s _
  | some .segIdent | some .segAttn | some .segReset | some .psetList | some .mapRead => exact .segment (.done s _ _)
  | some .expRead | some .slotRead | some .slotHold | some .slotRelease => exact .slot fun _ => .done s _ _
  | some .segCycle =>
    refine .segment ?_
    unfold segCycle
    split
    · next h => exact .cycle h
    · exact .done s _ _
  | some .segBudget =>
    refine .segment ?_
    unfold segBudget
    split
    · exact .range s _
    · exact .done s _ _
  | some .evtRead =>
    refine .segment ?_
    unfold evtRead
    split
    · exact .range s _
    · exact .done s _ _
  | some .expLoad =>
    refine .slot fun i => ?_
    unfold expLoad
    split
    · exact .range s _
    · split
      · exact .refuse s _
      · exact .done s _ _
  | some .expClear =>
    refine .slot fun i => ?_
    unfold expClear
    split
    · exact .refuse s _
    · split <;> exact .done s _ _
  | some .slotRestart =>
    refine .slot fun i => ?_
    unfold slotRestart
    split
    · exact .refuse s _
    · exact .done s _ _
  | some .slotWithdraw =>
    refine .slot fun i => ?_
    unfold slotWithdraw
    split
    · exact .refuse s _
    · exact .done s _ _
  | some .psetOpen =>
    refine .set fun n => ?_
    unfold psetOpen
    split
    · exact .refuse s _
    · exact .done s _ _
  | some .psetWrite =>
    refine .set fun n => ?_
    unfold psetWrite
    dsimp only
    split
    · exact .refuse s _
    · split
      · exact .refuse s _
      · split
        · exact .refuse s _
        · exact .done s _ _
  | some .psetClose =>
    refine .set fun n => ?_
    unfold psetClose
    split
    · exact .refuse s _
    · exact .done s _ _
  | some .psetDrop =>
    refine .set fun n => ?_
    unfold psetDrop
    split
    · exact .refuse s _
    · split <;> exact .done s _ _
  | some .psetRead =>
    refine .set fun n => ?_
    rw [psetRead_eq]
    split
    · exact .refuse s _
    · split
      · exact .range s _
      · split
        · exact .range s _
        · exact .done s _ _

/-- Settles O6: each kind of request makes its checks before it acts. -/
theorem requestsAreChecked : Obligations.RequestsAreChecked := by
  unfold Obligations.RequestsAreChecked
  intro r s quiet
  have answered := exec_requestCommand_quiet quiet r
  refine ⟨fun unknown => ?_, fun name named => ⟨fun bad => ?_, fun good wrong => ?_⟩, _, _, answered,
    (perform_refuses r s).unchanged, (perform_refuses r s).payload⟩
  · rw [answered, perform_unknown unknown]
  · rw [answered, (perform_checked named s).target bad]
  · rw [answered, (perform_checked named s).length good wrong]

/-! ### What joins the queue (R175, R176) -/

theorem kick_busy {s : State} (h : s.trunk.transmitter ≠ .free) : kick s = s := if_neg h

/-- Settles O7: a transmitter that is not free is not started, so the request block is all that changes. -/
theorem requestsJoinTheQueue : Obligations.RequestsJoinTheQueue := by
  unfold Obligations.RequestsJoinTheQueue
  intro r s busy
  rw [exec_requestCommand, arrive, Config.requestCapacity]
  refine ⟨fun some room => ?_, fun full room => ?_, fun full none => ?_⟩
  · rw [if_pos room, if_neg some, kick_busy (s := joinQueue r s) busy]
    rfl
  · rw [if_neg (Nat.not_lt.mpr full), kick_busy (s := answerBusy r s) busy]
    exact congrArg _ (congrArg (fun b => { s with requests := b }) (if_pos room))
  · rw [if_neg (Nat.not_lt.mpr full), kick_busy (s := answerBusy r s) busy]
    exact congrArg _ (congrArg (fun b => { s with requests := b }) (if_neg (Nat.not_lt.mpr none)))

end Sys2Proof.Machine
end

section
/-! SUPPORT. Downstream frames: the CRC of a frame that is sent holds, a SERVICE frame carries its request, and the frames of R139 that
are discarded. -/

namespace Sys2Proof.Machine

/-! ### Numbers in a frame -/

theorem byteAt_append_left {a : Bytes} (b : Bytes) {k : Nat} (h : k < a.length) : byteAt (a ++ b) k = byteAt a k := by
  rw [byteAt, byteAt, List.getD_append _ _ _ _ h]

theorem byteAt_append_right (a b : Bytes) (k : Nat) : byteAt (a ++ b) (a.length + k) = byteAt b k := by
  rw [byteAt, byteAt, List.getD_append_right _ _ _ _ (Nat.le_add_right _ _), Nat.add_sub_cancel_left]

theorem numAt16_enc16 (rest : Bytes) {n : Nat} (h : n < 65536) : numAt16 (enc16 n ++ rest) 0 = n := enc16_numAt n h

theorem numAt16_append_right (a b : Bytes) (k : Nat) : numAt16 (a ++ b) (a.length + k) = numAt16 b k := by
  rw [numAt16, numAt16, Nat.add_assoc, byteAt_append_right, byteAt_append_right]

theorem numAt32_enc32 (rest : Bytes) {n : Nat} (h : n < 4294967296) : numAt32 (enc32 n ++ rest) 0 = n := by
  have high : numAt16 (enc32 n ++ rest) 0 = n / 65536 := enc16_numAt (n / 65536) (by omega)
  have low : numAt16 (enc32 n ++ rest) 2 = n % 65536 := by
    have e := numAt16_append_right (enc16 (n / 65536)) (enc16 n ++ rest) 0
    rw [enc32, List.append_assoc]
    refine e.trans ?_
    show (BitVec.ofNat 8 (n / 256)).toNat * 256 + (BitVec.ofNat 8 n).toNat = n % 65536
    simp only [BitVec.toNat_ofNat]
    omega
  rw [numAt32, high, low]
  omega

theorem numAt32_append_right (a b : Bytes) (k : Nat) : numAt32 (a ++ b) (a.length + k) = numAt32 b k := by
  rw [numAt32, numAt32, Nat.add_assoc, numAt16_append_right, numAt16_append_right]

/-! ### The CRC of a trunk frame (R198) -/

theorem crc32_lt (bs : Bytes) : crc32 bs < 4294967296 := (~~~ crcRegister (0x04C11DB7#32) bs).isLt

theorem trunkCrcHolds_iff (bs : Bytes) :
    trunkCrcHolds bs = true ↔ 4 ≤ bs.length ∧ crc32 (bs.take (bs.length - 4)) = numAt32 bs (bs.length - 4) := by
  simp [trunkCrcHolds]

@[simp] theorem withCrc32_length (bs : Bytes) : (withCrc32 bs).length = bs.length + 4 := by simp [withCrc32]

theorem trunkCrcHolds_withCrc32 (bs : Bytes) : trunkCrcHolds (withCrc32 bs) = true := by
  have carried := numAt32_append_right bs (enc32 (crc32 bs)) 0
  have own := numAt32_enc32 [] (crc32_lt bs)
  rw [List.append_nil] at own
  rw [trunkCrcHolds_iff, withCrc32_length, Nat.add_sub_cancel]
  refine ⟨by omega, ?_⟩
  rw [withCrc32, List.take_left, show bs.length = bs.length + 0 from rfl, carried, own]

theorem received_of_length_le {bs : Bytes} (h : bs.length ≤ 1454) : received bs = bs := List.take_of_length_le h

/-! ### Frames -/

theorem exec_cycleFrame (frame : Bytes) (s : State) : exec (.cycleFrame frame) s = .next (takeFrame frame s) := rfl

theorem exec_serviceRequestArrival (frame : Bytes) (s : State) :
    exec (.serviceRequestArrival frame) s = .next (takeFrame frame s) := rfl

theorem exec_downstreamFrameDiscard (frame : Bytes) (s : State) :
    exec (.downstreamFrameDiscard frame) s = .next (takeFrame frame s) := rfl

/-! ### SERVICE frames -/

theorem Request.frame_length (r : Request) : r.frame.length = r.payload.length + 10 := by
  simp [Request.frame]
  omega

theorem classify_requestFrame (r : Request) : classify r.frame = .service := by
  have kind : byteAt r.frame 0 = 2 := rfl
  have crc : trunkCrcHolds r.frame = true := trunkCrcHolds_withCrc32 _
  rw [classify, if_neg (by rw [r.frame_length]; omega), if_neg (by rw [kind]; decide), if_pos kind, if_pos crc]

/-- R174, R199: the fields of a request are read where its frame has them. -/
theorem requestOf_frame (r : Request) : requestOf r.frame = r := by
  have length : numAt16 r.frame 4 = r.length.toNat := enc16_numAt _ r.length.isLt
  have payload : (r.frame.drop 6).take (r.frame.length - 10) = r.payload := by
    rw [r.frame_length, Nat.add_sub_cancel]
    exact List.take_left
  rw [requestOf, length, payload, BitVec.ofNat_toNat, BitVec.setWidth_eq]
  rfl

/-- Settles O8: a SERVICE frame is read as its request, and the row of a request is its arrival. -/
theorem serviceFrameCarriesItsRequest : Obligations.ServiceFrameCarriesItsRequest := by
  unfold Obligations.ServiceFrameCarriesItsRequest
  intro r s short
  have long : ¬ r.frame.length < 10 := by rw [r.frame_length]; omega
  refine ⟨arrive r s, ?_, exec_requestCommand r s⟩
  rw [exec_serviceRequestArrival, takeFrame, received_of_length_le (by rw [r.frame_length]; omega),
    classify_requestFrame]
  dsimp only
  rw [takeServiceFrame, if_neg long, requestOf_frame]

/-! ### Discarded frames -/

theorem classify_of_badCrc {bs : Bytes} (kind : byteAt bs 0 = 2)
    (crc : crc32 (bs.take (bs.length - 4)) ≠ numAt32 bs (bs.length - 4)) : classify bs = .discard := by
  have fails : ¬ trunkCrcHolds bs = true := fun holds => crc ((trunkCrcHolds_iff bs).mp holds).2
  have other : byteAt bs 0 ≠ 1 := by omega
  rw [classify, if_neg other, if_pos kind, if_neg fails, ite_self]

theorem classify_of_otherKind {bs : Bytes} (kind : byteAt bs 0 ≠ 1 ∧ byteAt bs 0 ≠ 2) : classify bs = .discard := by
  rw [classify, if_neg kind.1, if_neg kind.2, ite_self]

theorem classify_ne_cycle {bs : Bytes} (kind : byteAt bs 0 = 2) : classify bs ≠ .cycle := by
  rw [classify, kind]
  split
  · nofun
  · rw [if_neg (by decide), if_pos rfl]
    split <;> nofun

theorem takeFrame_of_discard {frame : Bytes} (h : classify (received frame) = .discard) (s : State) : takeFrame frame s = s := by
  rw [takeFrame, h]

theorem takeFrame_of_shortService {frame : Bytes} (kind : byteAt (received frame) 0 = 2) (short : (received frame).length < 10)
    (s : State) : takeFrame frame s = s := by
  have other := classify_ne_cycle kind
  rw [takeFrame]
  cases h : classify (received frame) with
  | cycle => exact absurd h other
  | service => exact if_pos short
  | discard => rfl

/-- Settles O9: all three rows hand their bytes to one classification. -/
theorem framesAreDiscarded : Obligations.FramesAreDiscarded := by
  unfold Obligations.FramesAreDiscarded
  intro frame s bs bad
  have discarded : takeFrame frame s = s := by
    rcases bad with short | kind | ⟨kind, crc⟩ | ⟨kind, short⟩
    · exact takeFrame_of_discard (if_pos short) s
    · exact takeFrame_of_discard (classify_of_otherKind kind) s
    · exact takeFrame_of_discard (classify_of_badCrc kind crc) s
    · exact takeFrame_of_shortService kind short s
  rw [exec_downstreamFrameDiscard, exec_serviceRequestArrival, exec_cycleFrame, discarded]
  exact ⟨rfl, rfl, rfl⟩

end Sys2Proof.Machine
end

section
/-! SUPPORT. Whole states: a change of one slot's records is the replacement of that slot, so a chain of changes at one slot is one
replacement. What a link sends, and what the re-checks leave, as whole slots. -/

namespace Sys2Proof.Machine

/-! ### One slot replaced -/

section
variable (s : State) (i : SlotIx) (x : Slot)

@[simp] theorem setSlot_setSlot (y : Slot) : (s.setSlot i x).setSlot i y = s.setSlot i y := by
  simp only [State.setSlot, Vector.set_set]

@[simp] theorem ctx_setSlot_same : (s.setSlot i x).ctx i = x.ctx := congrArg Slot.ctx (slot_setSlot_same s i x)
@[simp] theorem link_setSlot_same : (s.setSlot i x).link i = x.link := congrArg Slot.link (slot_setSlot_same s i x)
@[simp] theorem slotPower_setSlot_same : (s.setSlot i x).slotPower i = x.power := congrArg Slot.power (slot_setSlot_same s i x)
@[simp] theorem map_setSlot_same : (s.setSlot i x).map i = x.map := congrArg Slot.map (slot_setSlot_same s i x)
@[simp] theorem expected_setSlot_same : (s.setSlot i x).expected i = x.expected := congrArg Slot.expected (slot_setSlot_same s i x)

theorem modCtx_eq (f : Context → Context) : modCtx i f s = s.setSlot i { s.slot i with ctx := f (s.ctx i) } := rfl
theorem modLink_eq (f : LinkEngine → LinkEngine) : modLink i f s = s.setSlot i { s.slot i with link := f (s.link i) } := rfl
theorem modPower_eq (f : SlotPower → SlotPower) : modPower i f s = s.setSlot i { s.slot i with power := f (s.slotPower i) } := rfl
theorem modMap_eq (f : SlotMap → SlotMap) : modMap i f s = s.setSlot i { s.slot i with map := f (s.map i) } := rfl
theorem setExpected_eq (r : Option ExpRecord) : setExpected i r s = s.setSlot i { s.slot i with expected := r } := rfl

@[simp] theorem modCtx_setSlot (f : Context → Context) : modCtx i f (s.setSlot i x) = s.setSlot i { x with ctx := f x.ctx } := by
  rw [modCtx_eq, setSlot_setSlot, slot_setSlot_same, ctx_setSlot_same]

@[simp] theorem modLink_setSlot (f : LinkEngine → LinkEngine) :
    modLink i f (s.setSlot i x) = s.setSlot i { x with link := f x.link } := by
  rw [modLink_eq, setSlot_setSlot, slot_setSlot_same, link_setSlot_same]

@[simp] theorem modPower_setSlot (f : SlotPower → SlotPower) :
    modPower i f (s.setSlot i x) = s.setSlot i { x with power := f x.power } := by
  rw [modPower_eq, setSlot_setSlot, slot_setSlot_same, slotPower_setSlot_same]

@[simp] theorem modMap_setSlot (f : SlotMap → SlotMap) : modMap i f (s.setSlot i x) = s.setSlot i { x with map := f x.map } := by
  rw [modMap_eq, setSlot_setSlot, slot_setSlot_same, map_setSlot_same]

@[simp] theorem setExpected_setSlot (r : Option ExpRecord) :
    setExpected i r (s.setSlot i x) = s.setSlot i { x with expected := r } := by
  rw [setExpected_eq, setSlot_setSlot, slot_setSlot_same]

theorem post_setSlot (o : Option SlotIx) (b : EventBody) : post o b (s.setSlot i x) = (post o b s).setSlot i x := rfl

end

/-- A slot whose power record, windows and record stand is known by its context and its link. -/
theorem slot_of_ctx_link {s t : State} {j : SlotIx} {c : Context} {l : LinkEngine} (ctx : t.ctx j = c) (link : t.link j = l)
    (power : t.slotPower j = s.slotPower j) (map : t.map j = s.map j) (expected : t.expected j = s.expected j) :
    t.slot j = { s.slot j with ctx := c, link := l } := by
  subst ctx link
  have parts : t.slot j = { ctx := t.ctx j, power := t.slotPower j, link := t.link j, map := t.map j, expected := t.expected j } := rfl
  rw [parts, power, map, expected]
  rfl

/-! ### Sending -/

section
variable (i : SlotIx) (s : State)

theorem sendNow_eq_setSlot (x : NextSend) :
    sendNow i x s = s.setSlot i { s.slot i with link := (sendNow i x s).link i } := by
  unfold sendNow
  rw [modLink_link_same, modLink_eq]

theorem send_eq_setSlot (x : NextSend) : send i x s = s.setSlot i { s.slot i with link := (send i x s).link i } := by
  unfold send
  split
  · rw [modLink_link_same, modLink_eq]
  · exact sendNow_eq_setSlot i s x

theorem send_request_eq (r : ControlReq) :
    send i (.request r) s = s.setSlot i { s.slot i with link := (s.link i).asks r } := by
  rw [send_eq_setSlot, send_request_link]

theorem occupied_iff (l : LinkEngine) : l.occupied = true ↔ (l.turnaround.isSome ∨ l.sending.isSome ∨ l.receiving = true) := by
  simp only [LinkEngine.occupied, Bool.or_eq_true, or_assoc]

theorem send_train_link {kind : TrainKind} {target : RateCode} (h : (s.link i).training = some (kind, target)) :
    (send i .train s).link i = (s.link i).trains kind target := by
  unfold send LinkEngine.trains
  simp only [occupied_iff]
  split
  · rw [modLink_link_same]
  · rw [sendNow, modLink_link_same]
    simp only [h, Config.attemptInterval]

theorem send_train_eq {kind : TrainKind} {target : RateCode} (h : (s.link i).training = some (kind, target)) :
    send i .train s = s.setSlot i { s.slot i with link := (s.link i).trains kind target } := by
  rw [send_eq_setSlot, send_train_link i s h]

end

/-! ### The admission check of a READY context (R14, R159, R161) -/

section
variable {i : SlotIx} {s : State}

theorem refuseAdmission_eq (i : SlotIx) (r : Refused) (s : State) : refuseAdmission i r s =
    (if (s.ctx i).reason = some r.reason then s else post (some i) (.admitRefused r) s).setSlot i
      { s.slot i with ctx := { s.ctx i with state := .ready, reason := some r.reason } } := by
  unfold refuseAdmission
  dsimp only
  rw [modCtx_eq, post_setSlot]
  split <;> rfl

theorem tryAdmit_of_not (h : ¬ ((s.ctx i).state = .ready ∧ (s.ctx i).hold = false ∧ s.ownRetiring i = false)) :
    tryAdmit i s = s := if_neg h

theorem tryAdmit_passes (h : (s.ctx i).state = .ready ∧ (s.ctx i).hold = false ∧ s.ownRetiring i = false)
    (hn : s.admission i = none) : tryAdmit i s = s.setSlot i
      { s.slot i with ctx := { s.ctx i with state := .starting, reason := none }, link := (s.link i).asks .start } := by
  rw [tryAdmit, if_pos h, hn]
  dsimp only
  rw [send_request_eq, modCtx_eq, setSlot_setSlot, slot_setSlot_same, link_setSlot_same]
  rfl

theorem tryAdmit_refused (h : (s.ctx i).state = .ready ∧ (s.ctx i).hold = false ∧ s.ownRetiring i = false) {r : Refused}
    (hr : s.admission i = some r) : tryAdmit i s = refuseAdmission i r s := by
  rw [tryAdmit, if_pos h, hr]

end

/-! ### The re-checks (R160) -/

@[simp] theorem refuseAdmission_power (i : SlotIx) (r : Refused) (s : State) : (refuseAdmission i r s).power = s.power := by
  rw [refuseAdmission_eq]
  split <;> rfl

@[simp] theorem tryAdmit_power (i : SlotIx) (s : State) : (tryAdmit i s).power = s.power := by
  unfold tryAdmit
  split
  · split
    · rw [refuseAdmission_power]
    · rw [send_power, modCtx_power]
  · rfl

@[simp] theorem tryAdmit_slotPower (i j : SlotIx) (s : State) : (tryAdmit i s).slotPower j = s.slotPower j := by
  unfold tryAdmit refuseAdmission
  dsimp only
  split
  · split
    · split
      · rw [modCtx_slotPower]
      · rw [post_slotPower, modCtx_slotPower]
    · rw [send_slotPower, modCtx_slotPower]
  · rfl

theorem tryAdmits_power (l : List SlotIx) (s : State) : (l.foldl (fun t i => tryAdmit i t) s).power = s.power := by
  induction l generalizing s with
  | nil => rfl
  | cons i l ih => rw [List.foldl_cons, ih, tryAdmit_power]

theorem tryAdmits_slotPower (l : List SlotIx) (s : State) (j : SlotIx) :
    (l.foldl (fun t i => tryAdmit i t) s).slotPower j = s.slotPower j := by
  induction l generalizing s with
  | nil => rfl
  | cons i l ih => rw [List.foldl_cons, ih, tryAdmit_slotPower]

@[simp] theorem recheckAll_power (s : State) : (recheckAll s).power = s.power := tryAdmits_power _ _

@[simp] theorem recheckAll_slotPower (s : State) (j : SlotIx) : (recheckAll s).slotPower j = s.slotPower j :=
  tryAdmits_slotPower _ _ j

/-- R160: a re-check leaves what its own check reads. -/
theorem recheckAll_admission (s : State) (j : SlotIx) : (recheckAll s).admission j = s.admission j := by
  have beside := Beside.recheckAll s
  have reads : ((recheckAll s).ctx j).identity = (s.ctx j).identity ∧ ((recheckAll s).ctx j).layout = (s.ctx j).layout
      ∧ ((recheckAll s).ctx j).rateCode = (s.ctx j).rateCode := by
    have rechecked := recheckAll_rechecks s j
    split at rechecked
    · cases e : (recheckAll s).admission j with
      | none => rw [(rechecked.passes e).1]; exact ⟨rfl, rfl, rfl⟩
      | some r => rw [(rechecked.refused r e).1]; exact ⟨rfl, rfl, rfl⟩
    · rw [State.ctx, rechecked]; exact ⟨rfl, rfl, rfl⟩
  exact admission_congr j beside.trunk beside.map reads.1 reads.2.1 reads.2.2

/-- R160: the slots after the re-checks, each by its own check in the state before them. -/
theorem recheckAll_slot (s : State) (j : SlotIx) : (recheckAll s).slot j =
    if (s.ctx j).state = .ready ∧ (s.ctx j).hold = false ∧ s.ownRetiring j = false then
      (match s.admission j with
       | none => { s.slot j with ctx := { s.ctx j with state := .starting, reason := none }, link := (s.link j).asks .start }
       | some r => { s.slot j with ctx := { s.ctx j with reason := some r.reason } })
    else s.slot j := by
  have beside := Beside.recheckAll s
  have rechecked := recheckAll_rechecks s j
  rw [← recheckAll_admission s j]
  split
  · next h =>
    rw [if_pos h] at rechecked
    cases e : (recheckAll s).admission j with
    | none =>
      obtain ⟨ctx, link⟩ := rechecked.passes e
      exact slot_of_ctx_link ctx link (recheckAll_slotPower s j) (beside.map j) (beside.evolves.expected j)
    | some r =>
      obtain ⟨ctx, link, -⟩ := rechecked.refused r e
      exact slot_of_ctx_link ctx link (recheckAll_slotPower s j) (beside.map j) (beside.evolves.expected j)
  · next h => rwa [if_neg h] at rechecked

end Sys2Proof.Machine
end

section
/-! SUPPORT. The requests that read, and those to the segment: SEG_BUDGET, SEG_ATTN, EVT_READ and SEG_CYCLE. -/

namespace Sys2Proof.Machine

/-! ### A request that names its target and has its length -/

theorem slotTarget_slotByte (i : SlotIx) : slotTarget (slotByte i) = some i := by
  have value : (slotByte i).toNat = i.val := by
    simp only [slotByte, BitVec.toNat_ofNat]
    omega
  simp [slotTarget, value]

theorem requestFor_agrees (name : RequestName) (tag target : Byte) {payload : Bytes} (h : payload.length ≤ 512) :
    (requestFor name tag target payload).lengthAgrees = true := by
  simp only [Request.lengthAgrees, requestFor, BitVec.toNat_ofNat, decide_eq_true_eq]
  omega

theorem slotRequest_requestFor (name : RequestName) (tag : Byte) (i : SlotIx) (payload : Bytes) {ok : Nat → Bool}
    (act : SlotIx → State → State × Answer) (s : State) (hmax : payload.length ≤ 512) (hok : ok payload.length = true) :
    slotRequest (requestFor name tag (slotByte i) payload) ok act s = act i s := by
  have target : slotTarget (requestFor name tag (slotByte i) payload).target = some i := slotTarget_slotByte i
  have length : ok (requestFor name tag (slotByte i) payload).payload.length = true := hok
  simp [slotRequest, target, requestFor_agrees name tag (slotByte i) hmax, length]

theorem segmentRequest_requestFor (name : RequestName) (tag : Byte) (payload : Bytes) {ok : Nat → Bool}
    (act : State → State × Answer) (s : State) (hmax : payload.length ≤ 512) (hok : ok payload.length = true) :
    segmentRequest (requestFor name tag 255 payload) ok act s = act s := by
  have length : ok (requestFor name tag 255 payload).payload.length = true := hok
  have target : ¬ segmentTarget (requestFor name tag 255 payload).target = false := by
    show ¬ segmentTarget 255 = false
    decide
  rw [segmentRequest, if_neg target, if_neg]
  rw [requestFor_agrees name tag 255 hmax, length]
  simp

/-! ### What each request does (R177) -/

section
variable {tag : Byte} {s : State}

theorem perform_segIdent : perform (requestFor .segIdent tag 255 []) s = (s, done .ident) :=
  segmentRequest_requestFor .segIdent tag [] (ok := exactly 0) (fun s => (s, done .ident)) s (by simp) rfl

theorem perform_segCycle (p₁ p₂ o₁ o₂ i₁ i₂ g₁ g₂ : Byte) :
    perform (requestFor .segCycle tag 255 [p₁, p₂, o₁, o₂, i₁, i₂, g₁, g₂]) s
      = segCycle (p₁.toNat * 256 + p₂.toNat) (o₁.toNat * 256 + o₂.toNat) (i₁.toNat * 256 + i₂.toNat)
          (g₁.toNat * 256 + g₂.toNat) s :=
  segmentRequest_requestFor .segCycle tag [p₁, p₂, o₁, o₂, i₁, i₂, g₁, g₂] (ok := exactly 8) (segCycle _ _ _ _) s (by simp) rfl

theorem perform_segBudget (b₁ b₂ : Byte) :
    perform (requestFor .segBudget tag 255 [b₁, b₂]) s = segBudget (b₁.toNat * 256 + b₂.toNat) s :=
  segmentRequest_requestFor .segBudget tag [b₁, b₂] (ok := exactly 2) (segBudget _) s (by simp) rfl

theorem perform_segAttn (b₁ b₂ : Byte) :
    perform (requestFor .segAttn tag 255 [b₁, b₂]) s = segAttn (b₁.toNat * 256 + b₂.toNat) s :=
  segmentRequest_requestFor .segAttn tag [b₁, b₂] (ok := exactly 2) (segAttn _) s (by simp) rfl

theorem perform_segReset :
    perform (requestFor .segReset tag 255 []) s = (examineLines (resetBlocks s), done .none) := by
  have named : requestName (requestFor .segReset tag 255 []).code = some .segReset := requestName_code .segReset
  unfold perform
  rw [named]
  exact segmentRequest_requestFor .segReset tag [] (ok := exactly 0) _ s (by simp) rfl

theorem perform_expRead (i : SlotIx) :
    perform (requestFor .expRead tag (slotByte i) []) s = (s, done (.record (s.expected i))) :=
  slotRequest_requestFor .expRead tag i [] (ok := exactly 0)
    (fun i s => (s, done (.record (s.expected i)))) s (by simp) rfl

theorem perform_psetList : perform (requestFor .psetList tag 255 []) s
    = (s, done (.sets s.store.freeCount (s.store.sets.toList.map SetRecord.report))) :=
  segmentRequest_requestFor .psetList tag [] (ok := exactly 0)
    (fun s => (s, done (.sets s.store.freeCount (s.store.sets.toList.map SetRecord.report)))) s (by simp) rfl

theorem perform_psetRead (n : SetIx) (o₁ o₂ l₁ l₂ : Byte) :
    perform (requestFor .psetRead tag (setByte n) [o₁, o₂, l₁, l₂]) s
      = psetRead (o₁.toNat * 256 + o₂.toNat) (l₁.toNat * 256 + l₂.toNat) n s :=
  setRequest_requestFor .psetRead tag n [o₁, o₂, l₁, l₂] (ok := exactly 4) (psetRead _ _) s (by simp) rfl

theorem perform_slotRead (i : SlotIx) :
    perform (requestFor .slotRead tag (slotByte i) []) s = (s, done (.slot (s.slotReport i))) :=
  slotRequest_requestFor .slotRead tag i [] (ok := exactly 0) (fun i s => (s, done (.slot (s.slotReport i)))) s (by simp) rfl

theorem perform_mapRead : perform (requestFor .mapRead tag 255 []) s
    = (s, done (.map s.trunk.outLength s.trunk.inLength (allSlots.map fun i => (s.map i).report))) :=
  segmentRequest_requestFor .mapRead tag [] (ok := exactly 0)
    (fun s => (s, done (.map s.trunk.outLength s.trunk.inLength (allSlots.map fun i => (s.map i).report)))) s (by simp) rfl

theorem perform_evtRead (b : Byte) : perform (requestFor .evtRead tag 255 [b]) s = evtRead b.toNat s :=
  segmentRequest_requestFor .evtRead tag [b] (ok := exactly 1) (evtRead _) s (by simp) rfl

end

/-! ### The requests that only answer -/

theorem byteTime_eq (c : RateCode) : byteTime c = [1600, 800, 400, 200].getD c.val 0 := by
  revert c
  decide

theorem slotNeed_eq (outLength : Nat) (rate : RateCode) (co ci : Nat) : slotNeed outLength rate co ci
    = (14 + outLength) * 100 + ((12 + co + ci) * [1600, 800, 400, 200].getD rate.val 0 + 2000) + 5000 := by
  rw [slotNeed, exchangeTime, byteTime_eq]
  rfl

theorem Slot.atHoldPoint_iff (x : Slot) : x.atHoldPoint = true ↔ x.ctx.hold = true ∧ (x.ctx.state = .ready
    ∨ (x.ctx.state = .rateTraining ∧ x.link.link = .up ∧ x.link.pipe = .idle ∧ x.link.next = none)) := by
  simp [Slot.atHoldPoint, LinkEngine.rateSettled, and_assoc]

theorem allSlots_getElem? (i : SlotIx) : allSlots[i.val]? = some i := by
  revert i
  decide

theorem Context.headroom_eq (c : Context) (period outLength : Nat) : c.headroom period outLength =
    if period = 0 ∨ c.layout = none ∨ c.need outLength > period * 1000 then 0 else (period * 1000 - c.need outLength) / 1000 := by
  simp only [Context.headroom, Context.fitsCycle, decide_eq_false_iff_not, Nat.not_le, gt_iff_lt]

/-- Settles O10: each reading request leaves the state as it is. -/
theorem readingRequestsOnlyAnswer : Obligations.ReadingRequestsOnlyAnswer := by
  unfold Obligations.ReadingRequestsOnlyAnswer
  intro s tag quiet
  refine ⟨⟨exec_row (name := .segIdent) (payload := []) quiet perform_segIdent, by decide⟩,
    fun i => exec_row (name := .expRead) (payload := []) quiet (perform_expRead i),
    ⟨_, exec_row (name := .psetList) (payload := []) quiet perform_psetList, by simp, fun n => ?_⟩,
    fun n o₁ o₂ l₁ l₂ => ?_,
    fun i => ⟨_, _, exec_row (name := .slotRead) (payload := []) quiet (perform_slotRead i), (s.slot i).atHoldPoint_iff, ?_⟩,
    ⟨_, exec_row (name := .mapRead) (payload := []) quiet perform_mapRead, rfl, fun i => ?_⟩⟩
  · simp [Store.set, SetRecord.report]
  · exact exec_row (name := .psetRead) (payload := [o₁, o₂, l₁, l₂]) quiet
      ((perform_psetRead n o₁ o₂ l₁ l₂).trans (psetRead_eq _ _ n s))
  · rw [Context.headroom_eq, Context.need, slotNeed_eq]
  · simp [allSlots_getElem?, SlotMap.report]

/-! ### SEG_BUDGET, SEG_ATTN and EVT_READ -/

/-- Settles O11: a budget above 20,000 is refused before anything changes; any other is set, and the pass of a raised one follows. -/
theorem segBudgetSetsTheBudget : Obligations.SegBudgetSetsTheBudget := by
  unfold Obligations.SegBudgetSetsTheBudget
  intro s tag b₁ b₂ quiet budget r
  have row {t : State} {a : Answer} (h : segBudget budget s = (t, a)) :
      exec (.segBudget tag 255 2 [b₁, b₂]) s = .next (t.answered r a) :=
    exec_row (name := .segBudget) (payload := [b₁, b₂]) quiet ((perform_segBudget b₁ b₂).trans h)
  refine ⟨fun high => row (if_pos high), fun low => ⟨setBudget budget s, ?_, ?_⟩⟩
  · have kept : (setBudget budget s).power.budget = budget := by
      have passed : Evolves (modRack (fun p => { p with budget := budget }) s) (setBudget budget s) := by
        unfold setBudget
        dsimp only
        split <;> split <;> simp (maxDischargeDepth := 12) [Evolves.refl]
      exact passed.budget
    have answer := row (if_neg (Nat.not_lt.mpr low))
    rw [State.powerPayload, kept] at answer
    exact answer
  · unfold setBudget
    by_cases above : s.power.committed > budget
    · simp only [if_pos above]; rfl
    · simp only [if_neg above]; rfl

/-- Settles O12. -/
theorem attentionRequests : Obligations.AttentionRequests := by
  unfold Obligations.AttentionRequests
  intro s tag b₁ b₂ quiet
  refine ⟨exec_row (name := .segAttn) (payload := [b₁, b₂]) quiet (perform_segAttn b₁ b₂), ?_⟩
  intro n r e
  have row {t : State} {a : Answer} (h : evtRead n s = (t, a)) :
      exec (.evtRead tag 255 1 [b₁]) s = .next (t.answered r a) :=
    exec_row (name := .evtRead) (payload := [b₁]) quiet ((perform_evtRead b₁).trans h)
  refine ⟨fun many => row (if_pos many), fun few => ?_⟩
  have read := row (if_neg (Nat.not_lt.mpr few))
  rwa [List.length_drop] at read

end Sys2Proof.Machine
end

section
/-! SUPPORT. The first slot that satisfies a test (R152, R158), the refusals of SEG_CYCLE in their order, and the admission check. -/

namespace Sys2Proof.Machine

/-! ### The first slot that satisfies a test -/

theorem allSlots_getElem {m : Nat} (h : m < allSlots.length) : allSlots[m] = ⟨m, h⟩ := by
  have found := allSlots_getElem? ⟨m, h⟩
  exact (List.getElem?_eq_some_iff.mp found).2

theorem find?_allSlots_first {p : SlotIx → Bool} {j : SlotIx} (found : p j = true) (before : ∀ k, k < j → p k = false) :
    allSlots.find? p = some j := by
  refine List.find?_eq_some_iff_getElem.mpr ⟨found, j.val, j.isLt, allSlots_getElem j.isLt, fun m hm => ?_⟩
  rw [allSlots_getElem (Nat.lt_trans hm j.isLt)]
  exact congrArg (!·) (before ⟨m, _⟩ hm)

theorem find?_allSlots_eq_none {p : SlotIx → Bool} (h : ∀ j, p j = false) : allSlots.find? p = none :=
  List.find?_eq_none.mpr fun j _ => by rw [h j]; nofun

/-! ### The checks of SEG_CYCLE (R152) -/

theorem cycleRange_eq_none {p o i g : Nat} (h : CycleInRange p o i g) : cycleRange p o i g = none := by
  obtain ⟨period, out, inl, low, high⟩ := h
  have longest : Config.imageMax = 1440 := rfl
  rw [cycleRange, if_neg (by omega), if_neg (by omega), if_neg (by omega), if_neg (by omega)]

section
variable {s : State} {p o i g : Nat}

theorem cycleRefusal_range {k : Nat} (h : cycleRange p o i g = some k) : s.cycleRefusal p o i g = some (refuseRange k) := by
  rw [State.cycleRefusal, h]

theorem cycleRefusal_claimed (range : CycleInRange p o i g) (zero : p = 0)
    (claimed : ∃ j, (s.map j).output.claimed ≠ none ∨ (s.map j).input.claimed ≠ none) :
    s.cycleRefusal p o i g = some (refuse .state) := by
  obtain ⟨j, hj⟩ := claimed
  have found : allSlots.any (fun i => (s.map i).output.claimed.isSome || (s.map i).input.claimed.isSome) = true := by
    refine List.any_eq_true.mpr ⟨j, mem_allSlots j, ?_⟩
    simpa [Option.isSome_iff_ne_none] using hj
  simp only [State.cycleRefusal, cycleRange_eq_none range, if_pos zero, if_pos found]

theorem cycleRefusal_unclaimed (range : CycleInRange p o i g) (zero : p = 0)
    (vacant : ∀ j, (s.map j).output.claimed = none ∧ (s.map j).input.claimed = none) : s.cycleRefusal p o i g = none := by
  have notFound : ¬ allSlots.any (fun i => (s.map i).output.claimed.isSome || (s.map i).input.claimed.isSome) = true := by
    simp [vacant]
  simp only [State.cycleRefusal, cycleRange_eq_none range, if_pos zero, if_neg notFound]

theorem cycleRefusal_down (range : CycleInRange p o i g) (hp : p ≠ 0) (long : p * 1000 < downNeed o g) :
    s.cycleRefusal p o i g = some { completion := .timing, field := 0, payload := .lineTiming false } := by
  simp only [State.cycleRefusal, cycleRange_eq_none range, if_neg hp, if_pos long]

theorem cycleRefusal_up (range : CycleInRange p o i g) (hp : p ≠ 0) (down : downNeed o g ≤ p * 1000)
    (long : p * 1000 < upNeed i g) :
    s.cycleRefusal p o i g = some { completion := .timing, field := 0, payload := .lineTiming true } := by
  simp only [State.cycleRefusal, cycleRange_eq_none range, if_neg hp, gt_iff_lt, if_neg (Nat.not_lt.mpr down), if_pos long]

/-- Past the timing of the lines, the first window out of bounds decides. -/
theorem cycleRefusal_bounds (range : CycleInRange p o i g) (hp : p ≠ 0) (down : downNeed o g ≤ p * 1000)
    (up : upNeed i g ≤ p * 1000) {j : SlotIx} {d : Direction} (outside : s.firstOutside o i = some (j, d)) :
    s.cycleRefusal p o i g = some { completion := .bounds, field := 0, payload := .outOfBounds j d } := by
  simp only [State.cycleRefusal, cycleRange_eq_none range, if_neg hp, gt_iff_lt, if_neg (Nat.not_lt.mpr down),
    if_neg (Nat.not_lt.mpr up), outside]

/-- And past the windows, the first slot that fails the slot check. -/
theorem cycleRefusal_slots (range : CycleInRange p o i g) (hp : p ≠ 0) (down : downNeed o g ≤ p * 1000)
    (up : upNeed i g ≤ p * 1000) (inside : s.firstOutside o i = none) : s.cycleRefusal p o i g =
      (s.firstUnfit p o).map fun j => { completion := .timing, field := 0, payload := .slotTiming j ((s.ctx j).need o) } := by
  simp only [State.cycleRefusal, cycleRange_eq_none range, if_neg hp, gt_iff_lt, if_neg (Nat.not_lt.mpr down),
    if_neg (Nat.not_lt.mpr up), inside]

end

theorem Window.outside_iff (w : Window) (n : Nat) : w.outside n = true ↔ ∃ v, w.claimed = some v ∧ n < v.offset + v.length := by
  cases h : w.claimed <;> simp [Window.outside, h, Span.finish]

theorem Window.outside_eq_false_iff (w : Window) (n : Nat) :
    w.outside n = false ↔ ∀ v, w.claimed = some v → v.offset + v.length ≤ n := by
  cases h : w.claimed <;> simp [Window.outside, h, Span.finish]

theorem SlotMap.within_iff (m : SlotMap) (o i : Nat) :
    m.within o i ↔ (m.output.outside o || m.input.outside i) = false := by
  rw [Bool.or_eq_false_iff, Window.outside_eq_false_iff, Window.outside_eq_false_iff, SlotMap.within]

theorem firstOutside_none {s : State} {o i : Nat} (h : ∀ j, (s.map j).within o i) : s.firstOutside o i = none := by
  rw [State.firstOutside, find?_allSlots_eq_none fun j => ((s.map j).within_iff o i).mp (h j)]
  rfl

theorem firstOutside_output {s : State} {o i : Nat} {j : SlotIx} (out : (s.map j).output.outside o = true)
    (before : ∀ k, k < j → (s.map k).within o i) : s.firstOutside o i = some (j, .output) := by
  have found : ((s.map j).output.outside o || (s.map j).input.outside i) = true := by rw [out, Bool.true_or]
  rw [State.firstOutside, find?_allSlots_first found fun k hk => ((s.map k).within_iff o i).mp (before k hk)]
  simp [out]

theorem firstOutside_input {s : State} {o i : Nat} {j : SlotIx} (output : (s.map j).output.outside o = false)
    (out : (s.map j).input.outside i = true) (before : ∀ k, k < j → (s.map k).within o i) :
    s.firstOutside o i = some (j, .input) := by
  have found : ((s.map j).output.outside o || (s.map j).input.outside i) = true := by rw [out, Bool.or_true]
  rw [State.firstOutside, find?_allSlots_first found fun k hk => ((s.map k).within_iff o i).mp (before k hk)]
  simp [output]

theorem Context.suits_iff (c : Context) (p o : Nat) :
    c.suits p o ↔ ((decide (c.state = .running) || decide (c.state = .admitPending)) && !c.fitsCycle p o) = false := by
  rw [Context.suits, Context.fitsCycle]
  by_cases serves : c.state = .running ∨ c.state = .admitPending
  · have test : (decide (c.state = .running) || decide (c.state = .admitPending)) = true := by simpa using serves
    rw [test]
    simp [serves]
  · have test : (decide (c.state = .running) || decide (c.state = .admitPending)) = false := by simpa using serves
    rw [test]
    simp [serves]

theorem firstUnfit_none {s : State} {p o : Nat} (h : ∀ j, (s.ctx j).suits p o) : s.firstUnfit p o = none :=
  find?_allSlots_eq_none fun j => ((s.ctx j).suits_iff p o).mp (h j)

theorem firstUnfit_some {s : State} {p o : Nat} {j : SlotIx} (unfit : ¬ (s.ctx j).suits p o)
    (before : ∀ k, k < j → (s.ctx k).suits p o) : s.firstUnfit p o = some j :=
  find?_allSlots_first (Bool.of_not_eq_false fun e => unfit (((s.ctx j).suits_iff p o).mpr e))
    fun k hk => ((s.ctx k).suits_iff p o).mp (before k hk)

section
variable {tag p₁ p₂ o₁ o₂ i₁ i₂ g₁ g₂ : Byte} {s : State}

theorem exec_segCycle {t : State} {a : Answer} (quiet : s.quiet)
    (h : segCycle (p₁.toNat * 256 + p₂.toNat) (o₁.toNat * 256 + o₂.toNat) (i₁.toNat * 256 + i₂.toNat)
      (g₁.toNat * 256 + g₂.toNat) s = (t, a)) :
    exec (.segCycle tag 255 8 [p₁, p₂, o₁, o₂, i₁, i₂, g₁, g₂]) s
      = .next (t.answered (requestFor .segCycle tag 255 [p₁, p₂, o₁, o₂, i₁, i₂, g₁, g₂]) a) :=
  exec_row (name := .segCycle) (payload := [p₁, p₂, o₁, o₂, i₁, i₂, g₁, g₂]) quiet
    ((perform_segCycle p₁ p₂ o₁ o₂ i₁ i₂ g₁ g₂).trans h)

end

theorem segCycle_refused {p o i g : Nat} {s : State} {a : Answer} (h : s.cycleRefusal p o i g = some a) :
    segCycle p o i g s = (s, a) := by
  rw [segCycle, h]

theorem segCycle_accepted {p o i g : Nat} {s : State} (h : s.cycleRefusal p o i g = none) :
    segCycle p o i g s = (recheckAll (modTrunk (Trunk.configure p o i g) s), done (.cycle p o i g (downNeed o g) (upNeed i g))) := by
  rw [segCycle, h]

/-- Settles O14: each clause names the first check that fails. -/
theorem segCycleIsRefusedInOrder : Obligations.SegCycleIsRefusedInOrder := by
  unfold Obligations.SegCycleIsRefusedInOrder
  intro s tag p₁ p₂ o₁ o₂ i₁ i₂ g₁ g₂ quiet p o i g payload down up answers badPeriod
  have refused {c : Completion} {k : Nat} {d : Payload} (h : s.cycleRefusal p o i g = some { completion := c, field := k, payload := d }) :
      answers c k d := exec_segCycle quiet (segCycle_refused h)
  have range {k : Nat} (h : cycleRange p o i g = some k) : answers .range k .none := refused (cycleRefusal_range h)
  refine ⟨fun bad => range (if_pos bad), fun good h => range ?_, fun good ho h => range ?_, fun good ho hi h => range ?_,
    fun inRange => ⟨fun zero claimed => refused (cycleRefusal_claimed inRange zero claimed),
      fun hp h => refused (cycleRefusal_down inRange hp h), fun hp h₁ h₂ => refused (cycleRefusal_up inRange hp h₁ h₂),
      fun hp h₁ h₂ => ⟨fun j w claimed h before => refused ?_, fun j w claimed h out before => refused ?_,
        fun within j unfit before => refused ?_⟩⟩⟩
  · rw [cycleRange, if_neg good, Config.imageMax, if_pos h]
  · rw [cycleRange, if_neg good, Config.imageMax, if_neg (Nat.not_lt.mpr ho), if_pos h]
  · rw [cycleRange, if_neg good, Config.imageMax, if_neg (Nat.not_lt.mpr ho), if_neg (Nat.not_lt.mpr hi), if_pos h]
  · exact cycleRefusal_bounds inRange hp h₁ h₂ (firstOutside_output ((Window.outside_iff _ _).mpr ⟨w, claimed, h⟩) before)
  · exact cycleRefusal_bounds inRange hp h₁ h₂ (firstOutside_input ((Window.outside_eq_false_iff _ _).mpr out)
      ((Window.outside_iff _ _).mpr ⟨w, claimed, h⟩) before)
  · rw [cycleRefusal_slots inRange hp h₁ h₂ (firstOutside_none within), firstUnfit_some unfit before]
    rfl

/-! ### An accepted SEG_CYCLE -/

theorem Trunk.configure_eq (p o i g : Nat) (t : Trunk) : t.configure p o i g = t.configured p o i g := by
  unfold Trunk.configure Trunk.configured
  dsimp only
  split <;> rfl

theorem ownRetiring_eq_false_iff (s : State) (j : SlotIx) :
    s.ownRetiring j = false ↔ (s.map j).output.isRetiring = false ∧ (s.map j).input.isRetiring = false :=
  Bool.or_eq_false_iff

/-- Settles O13: the re-checks are made in any order, each by its own check against the new configuration. -/
theorem segCycleSetsTheConfiguration : Obligations.SegCycleSetsTheConfiguration := by
  unfold Obligations.SegCycleSetsTheConfiguration
  intro s tag p₁ p₂ o₁ o₂ i₁ i₂ g₁ g₂ quiet p o i g payload down up u inRange vacant fits
  have accepted : s.cycleRefusal p o i g = none := by
    by_cases zero : p = 0
    · exact cycleRefusal_unclaimed inRange zero (vacant zero)
    · obtain ⟨hdown, hup, within, suits⟩ := fits zero
      rw [cycleRefusal_slots inRange zero hdown hup (firstOutside_none within), firstUnfit_none suits]
      rfl
  have configured : modTrunk (Trunk.configure p o i g) s = u := by
    rw [modTrunk, Trunk.configure_eq]
  have performed := segCycle_accepted accepted
  rw [configured] at performed
  have beside := Beside.recheckAll u
  refine ⟨recheckAll u, exec_segCycle quiet performed, beside.trunk, recheckAll_power u, beside.store, beside.retained,
    beside.evolves.pending, beside.evolves.requests, beside.evolves.events, fun j => ?_, fun j r ready hold out inp refused new => ?_⟩
  · exact (recheckAll_slot u j).trans (if_congr
      (and_congr_right fun _ => and_congr_right fun _ => ownRetiring_eq_false_iff u j) rfl rfl)
  · have rechecked := recheckAll_rechecks u j
    rw [if_pos ⟨ready, hold, (ownRetiring_eq_false_iff u j).mpr ⟨out, inp⟩⟩] at rechecked
    have posted := (rechecked.refused r ((recheckAll_admission u j).trans refused)).2.2 new
    rwa [beside.trunk] at posted

/-! ### The admission check (R158) -/

theorem overlaps_iff (a b : Span) :
    a.overlaps b = true ↔ ∃ k, (b.offset ≤ k ∧ k < b.offset + b.length) ∧ a.offset ≤ k ∧ k < a.offset + a.length := by
  constructor
  · intro h
    rw [Span.overlaps, decide_eq_true_iff] at h
    simp only [Span.finish] at h
    exact ⟨max a.offset b.offset, by omega⟩
  · rintro ⟨k, inB, inA⟩
    exact Bool.of_not_eq_false fun apart => overlaps_false apart k ⟨inA, inB⟩

theorem Context.window_of_layout {c : Context} {l : Layout} (h : c.layout = some l) :
    c.window .output = l.outWindow ∧ c.window .input = l.inWindow := by
  simp only [Context.window, h, and_self]

/-- Settles O15: each clause names the first condition that fails. -/
theorem admissionIsCheckedInOrder : Obligations.AdmissionIsCheckedInOrder := by
  unfold Obligations.AdmissionIsCheckedInOrder
  intro s i l c layout identity t need outEnd inEnd shares
  obtain ⟨out, inp⟩ := Context.window_of_layout layout
  have needed : (s.ctx i).need t.outLength = need := by
    rw [Context.need, slotNeed_eq, Context.co, Context.ci, identity]
    rfl
  have checked : s.admission i =
      if t.period = 0 then some .noCycle
      else if t.period * 1000 < need then some (.timing need t.period)
      else if t.outLength < outEnd then some (.bounds .output outEnd t.outLength)
      else if t.inLength < inEnd then some (.bounds .input inEnd t.inLength)
      else (s.overlapping i l.inWindow).map fun o => .overlap o.1 o.2 := by
    unfold State.admission
    dsimp only
    rw [Context.fitsCycle, needed, out, inp]
    simp only [decide_eq_false_iff_not, Nat.not_le, gt_iff_lt]
    rfl
  have test (j : SlotIx) : (decide (j ≠ i) && ((s.map j).input.claimed.any fun v => l.inWindow.overlaps v)) = true ↔ shares j := by
    rw [Bool.and_eq_true, decide_eq_true_iff, Option.any_eq_true]
    refine and_congr_right fun _ => exists_congr fun w => ?_
    rw [overlaps_iff, exists_and_left]
  have apart (j : SlotIx) (h : ¬ shares j) :
      (decide (j ≠ i) && ((s.map j).input.claimed.any fun v => l.inWindow.overlaps v)) = false :=
    Bool.eq_false_iff.mpr fun e => h ((test j).mp e)
  rw [checked]
  refine ⟨fun zero => if_pos zero, fun cycle => ?_⟩
  rw [if_neg cycle]
  refine ⟨fun late => if_pos late, fun inTime => ?_⟩
  rw [if_neg (Nat.not_lt.mpr inTime)]
  refine ⟨fun outside => if_pos outside, fun within => ?_⟩
  rw [if_neg (Nat.not_lt.mpr within)]
  refine ⟨fun outside => if_pos outside, fun within => ?_⟩
  rw [if_neg (Nat.not_lt.mpr within), State.overlapping]
  refine ⟨fun none => ?_, fun j found before => ?_⟩
  · rw [find?_allSlots_eq_none fun j => apart j (none j)]
    rfl
  · rw [find?_allSlots_first ((test j).mpr found) fun k hk => apart k (before k hk)]
    rfl

end Sys2Proof.Machine
end

section
/-! SUPPORT. Power-on and SEG_RESET as whole states: the examination of the presence lines changes each slot by itself. -/

namespace Sys2Proof.Machine

/-! ### Slots that change each by itself -/

section
variable {act : SlotIx → State → State} {f : Slot → Slot} (h : ∀ i s, act i s = s.setSlot i (f (s.slot i)))
include h

theorem foldl_setSlot (l : List SlotIx) (distinct : l.Nodup) (s : State) :
    ∃ slots : Vector Slot 12, l.foldl (fun t i => act i t) s = { s with slots := slots }
      ∧ ∀ j : SlotIx, slots[j] = if j ∈ l then f (s.slot j) else s.slot j := by
  induction l generalizing s with
  | nil => exact ⟨s.slots, rfl, fun j => (if_neg (List.not_mem_nil)).symm⟩
  | cons i l ih =>
    obtain ⟨first, later⟩ := List.nodup_cons.mp distinct
    obtain ⟨slots, folded, at_⟩ := ih later (act i s)
    refine ⟨slots, by rw [List.foldl_cons, folded, h]; rfl, fun j => ?_⟩
    rw [at_ j, h]
    by_cases same : j = i
    · rw [same, if_neg first, if_pos (List.mem_cons_self ..), slot_setSlot_same]
    · rw [slot_setSlot_ne _ _ same]
      simp only [List.mem_cons, same, false_or]

theorem eachSlot_setSlot (s : State) : eachSlot act s = { s with slots := s.slots.map f } := by
  obtain ⟨slots, folded, at_⟩ := foldl_setSlot h allSlots (by decide) s
  have all : slots = s.slots.map f := by
    refine Vector.ext fun k hk => ?_
    have one := at_ ⟨k, hk⟩
    rw [if_pos (mem_allSlots _)] at one
    rw [Vector.getElem_map]
    exact one
  rw [eachSlot, folded, all]

end

/-! ### The examination of the presence lines (R33, R36) -/

/-- R33, R34: a slot whose presence line has been examined. -/
def Slot.examined (x : Slot) : Slot :=
  if x.power.line ∧ x.power.debouncer = .absent ∧ x.ctx.state = .empty then
    { x with
      ctx := { x.ctx with state := .settling, reason := none }
      power := { x.power with debouncer := .rising 10000000, presentTimer := some 10000000, absentTimer := none } }
  else x

theorem examineLine_eq (i : SlotIx) (s : State) : examineLine i s = s.setSlot i (s.slot i).examined := by
  unfold examineLine
  split
  · next h =>
    have asserted : (s.slot i).examined = _ := if_pos h
    rw [asserted, assertion, modPower_eq, modCtx_setSlot]
    rfl
  · next h =>
    have other : (s.slot i).examined = s.slot i := if_neg h
    rw [other, setSlot_slot]

theorem examineLines_eq (s : State) : examineLines s = { s with slots := s.slots.map Slot.examined } :=
  eachSlot_setSlot examineLine_eq s

/-- A slot at its reset values, examined. -/
theorem Slot.examined_reset (line : Bool) (link : LinkEngine) (expected : Option ExpRecord) :
    Slot.examined { ctx := Context.reset, power := SlotPower.reset line, link := link, map := SlotMap.reset, expected := expected }
      = if line then
          { ctx := { Context.reset with state := .settling }
            power := { SlotPower.reset true with debouncer := .rising 10000000, presentTimer := some 10000000 }
            link := link, map := SlotMap.reset, expected := expected }
        else { ctx := Context.reset, power := SlotPower.reset false, link := link, map := SlotMap.reset, expected := expected } := by
  cases line <;> rfl

theorem exec_powerOn (s : State) : exec .powerOn s = .next (powerOn s) := rfl

/-- Settles O5. -/
theorem powerOnStartsTheDevice : Obligations.PowerOnStartsTheDevice := by
  unfold Obligations.PowerOnStartsTheDevice
  intro s
  rw [exec_powerOn, powerOn]
  generalize State.reset = r
  rw [examineLines_eq, Vector.map_map]
  have each : (Slot.examined ∘ fun x => Slot.reset x.power.line x.link.alive) = fun x : Slot =>
      if x.power.line then
        { ctx := { Context.reset with state := .settling }
          power := { SlotPower.reset true with debouncer := .rising 10000000, presentTimer := some 10000000 }
          link := LinkEngine.reset x.link.alive false, map := SlotMap.reset, expected := none }
      else
        { ctx := Context.reset, power := SlotPower.reset false, link := LinkEngine.reset x.link.alive false
          map := SlotMap.reset, expected := none } :=
    funext fun x => Slot.examined_reset x.power.line _ none
  rw [each]

/-! ### SEG_RESET (R185, R186) -/

/-- R185: what SEG_RESET leaves of every block. -/
theorem segReset_eq (s : State) : examineLines (resetBlocks s) = { s with
    slots := s.slots.map fun x =>
      if x.power.line then
        { ctx := { Context.reset with state := .settling }
          power := { SlotPower.reset true with debouncer := .rising 10000000, presentTimer := some 10000000 }
          link := x.link.gone, map := SlotMap.reset, expected := x.expected }
      else
        { ctx := Context.reset, power := SlotPower.reset false, link := x.link.gone, map := SlotMap.reset
          expected := x.expected }
    power := { committed := 0, budget := s.power.budget, queue := [], owner := none }
    trunk := { s.trunk with
      mode := .offline, lastCycle := 0, lossTimer := none
      tickTimer := if s.trunk.period = 0 then none else some (s.trunk.period * 1000)
      rejected := false, waiting := none }
    store := { s.store with sets := s.store.sets.map SetRecord.unpinned }
    events := { events := [{ slot := none, cycle := 0, body := .resetDone }], lost := false, moderation := 0
                interval := s.events.interval }
    retained := [] } := by
  have each : (Slot.examined ∘ Slot.segReset) = fun x : Slot =>
      if x.power.line then
        { ctx := { Context.reset with state := .settling }
          power := { SlotPower.reset true with debouncer := .rising 10000000, presentTimer := some 10000000 }
          link := x.link.gone, map := SlotMap.reset, expected := x.expected }
      else
        { ctx := Context.reset, power := SlotPower.reset false, link := x.link.gone, map := SlotMap.reset
          expected := x.expected } :=
    funext fun x => Slot.examined_reset x.power.line _ x.expected
  have slots : (resetBlocks s).slots = s.slots.map Slot.segReset := rfl
  rw [examineLines_eq, slots, Vector.map_map, each]
  rfl

/-- Settles O16. -/
theorem segResetResetsTheBlocks : Obligations.SegResetResetsTheBlocks := by
  unfold Obligations.SegResetResetsTheBlocks
  intro s tag quiet
  have performed := perform_segReset (tag := tag) (s := s)
  rw [segReset_eq] at performed
  exact exec_row (name := .segReset) (payload := []) quiet performed

/-! ### The head of the queue is sent (R177, R182, R186) -/

theorem exec_serviceResponseSent (s : State) : exec .serviceResponseSent s = .next (responseSent s) := rfl

/-- The state in which the entry behind a head that has been sent is executed. -/
def State.headSent (s : State) : State :=
  { s with requests := { s.requests with queue := s.requests.queue.tail }, trunk := { s.trunk with transmitter := .gap 1200 } }

theorem responseSent_head {s : State} (h : s.trunk.transmitter = .sendingHead) : responseSent s = executeHead s.headSent := by
  rw [responseSent, h]
  rfl

theorem executeHead_waiting {s : State} {e : Entry} {rest : List Entry} (queue : s.requests.queue = e :: rest)
    (waiting : e.state = .waiting) : executeHead s =
      modRequests (fun b => if discardsRest e.request (perform e.request s).2 then discardRest (answerHead (perform e.request s).2 b)
        else answerHead (perform e.request s).2 b) (perform e.request s).1 := by
  rw [executeHead, queue]
  dsimp only
  rw [waiting]

theorem discardEntries_eq_mapIdx (built : Nat) (l : List Entry) : discardEntries built l = l.mapIdx fun k x =>
    { x with state := .discarded { tag := x.request.tag, code := x.request.code, target := x.request.target
                                   answer := { completion := .discarded, field := 0, payload := .none }
                                   built := built + k } } := by
  induction l generalizing built with
  | nil => rfl
  | cons e l ih =>
    rw [discardEntries, ih, List.mapIdx_cons]
    simp only [Nat.add_assoc, Nat.add_comm 1]
    rfl

theorem request_eq_requestFor {r : Request} {name : RequestName} {tag target : Byte} (tag_ : r.tag = tag) (code : r.code = name.code)
    (target_ : r.target = target) (length : r.length = 0) (payload : r.payload = []) : r = requestFor name tag target [] := by
  cases r
  simp_all [requestFor]

/-- Settles O17: the answers of the entries behind are built after the SEG_RESET's own. -/
theorem segResetDiscardsWhatWaitsBehind : Obligations.SegResetDiscardsWhatWaitsBehind := by
  unfold Obligations.SegResetDiscardsWhatWaitsBehind
  intro s e₀ e rest sending queue waiting code target length payload
  have request : e.request = requestFor .segReset e.request.tag 255 [] := request_eq_requestFor rfl code target length payload
  have named : requestName e.request.code = some .segReset := by rw [code]; rfl
  have behind : s.headSent.requests.queue = e :: rest := congrArg List.tail queue
  have performed : perform e.request s.headSent = (examineLines (resetBlocks s.headSent), done .none) := by
    rw [request]
    exact perform_segReset
  have discards : discardsRest e.request (done .none) = true := by rw [discardsRest, named]; rfl
  have executed := executeHead_waiting behind waiting
  rw [performed, segReset_eq] at executed
  simp only [discards, if_true] at executed
  refine ⟨_, by rw [exec_serviceResponseSent, responseSent_head sending, executed], ?_, rfl, rfl, rfl, rfl, fun i => ?_⟩
  · rw [modRequests_requests]
    show discardRest (answerHead (done .none) s.headSent.requests) = _
    rw [answerHead, behind]
    show ({ queue := _, holding := _, built := _ } : RequestBlock) = _
    rw [discardEntries_eq_mapIdx]
    rfl
  · rw [modRequests_expected]
    have kept := (resetBlocks_leavesRecords s.headSent).expected i
    rw [segReset_eq] at kept
    exact kept

end Sys2Proof.Machine
end

section
/-! SUPPORT. The upstream transmitter: what it sends next (R140, R182), and the execution of the entry behind a response that has been
sent (R177). -/

namespace Sys2Proof.Machine

/-! ### The frame a transmitter takes (R140, R182) -/

section
variable {s : State}

theorem chooseFrame_return {f : ReturnFrame} (h : s.trunk.waiting = some f) : s.chooseFrame = .sendingReturn f := by
  rw [State.chooseFrame, h]

theorem headResponse_of_answered {b : RequestBlock} {e : Entry} {rest : List Entry} {r : Response} (queue : b.queue = e :: rest)
    (built : e.state = .answered r ∨ e.state = .discarded r) : b.headResponse = some r := by
  rw [RequestBlock.headResponse, queue]
  dsimp only
  rcases built with h | h <;> rw [h]

/-- R182: without a return frame, the response built earliest, the head entry's before a BUSY answer built at once. -/
theorem chooseFrame_head {r : Response} (h : s.trunk.waiting = none) (head : s.requests.headResponse = some r)
    (earliest : ∀ b, s.requests.holding.head? = some b → r.built ≤ b.built) : s.chooseFrame = .sendingHead := by
  cases holding : s.requests.holding with
  | nil => simp only [State.chooseFrame, h, head, holding]
  | cons b rest =>
    have first : r.built ≤ b.built := earliest b (by rw [holding]; rfl)
    simp only [State.chooseFrame, h, head, holding, if_pos first]

theorem chooseFrame_busy {b : Response} {rest : List Response} (h : s.trunk.waiting = none)
    (holding : s.requests.holding = b :: rest)
    (earliest : ∀ r, s.requests.headResponse = some r → b.built < r.built) : s.chooseFrame = .sendingBusy := by
  cases head : s.requests.headResponse with
  | none => simp only [State.chooseFrame, h, head, holding]
  | some r => simp only [State.chooseFrame, h, head, holding, if_neg (Nat.not_le.mpr (earliest r head))]

theorem chooseFrame_free (h : s.trunk.waiting = none) (queue : s.requests.queue = []) (holding : s.requests.holding = []) :
    s.chooseFrame = .free := by
  have head : s.requests.headResponse = none := by rw [RequestBlock.headResponse, queue]
  simp only [State.chooseFrame, h, head, holding]

/-- The head entry and its response. -/
theorem answered_of_headResponse {b : RequestBlock} {r : Response} (h : b.headResponse = some r) :
    ∃ e, b.queue.head? = some e ∧ (e.state = .answered r ∨ e.state = .discarded r) := by
  unfold RequestBlock.headResponse at h
  split at h
  · cases h
  · next e rest queue =>
    refine ⟨e, by rw [queue]; rfl, ?_⟩
    split at h
    · cases h
    · next state => cases h; exact .inl state
    · next state => cases h; exact .inr state

theorem gapEnds_eq {gap : Nat} (h : s.trunk.transmitter = .gap gap) : gapEnds s = startFrame s := by
  rw [gapEnds, h]

theorem startFrame_eq {x : Transmitter} (h : s.chooseFrame = x) :
    startFrame s = { s with trunk := { s.trunk with transmitter := x, waiting := none } } := by
  rw [startFrame, h]
  rfl

end

/-- Without a return frame, none is taken from where it waits. -/
theorem trunk_waiting_none {t : Trunk} (h : t.waiting = none) (x : Transmitter) :
    { t with transmitter := x, waiting := none } = { t with transmitter := x } := by
  rw [← h]

theorem exec_transmitterFree (s : State) : exec .transmitterFree s = .next (gapEnds s) := rfl

/-- Settles O35. -/
theorem transmitterSendsReturnFramesFirst : Obligations.TransmitterSendsReturnFramesFirst := by
  unfold Obligations.TransmitterSendsReturnFramesFirst
  refine fun s gap => ⟨fun ends => ?_, fun f sending => ?_⟩
  · have takes {x : Transmitter} (h : s.chooseFrame = x) :
        exec .transmitterFree s = .next { s with trunk := { s.trunk with transmitter := x, waiting := none } } := by
      rw [exec_transmitterFree, gapEnds_eq ends, startFrame_eq h]
    refine ⟨fun f waiting => takes (chooseFrame_return waiting), fun waiting => ?_⟩
    simp only [trunk_waiting_none waiting] at takes
    refine ⟨fun e rest r queue built earliest => takes ?_, fun b rest holding earliest => takes ?_,
      fun queue holding => takes (chooseFrame_free waiting queue holding)⟩
    · exact chooseFrame_head waiting (headResponse_of_answered queue built) earliest
    · refine chooseFrame_busy waiting holding fun r head => ?_
      obtain ⟨e, first, built⟩ := answered_of_headResponse head
      exact earliest e r first built
  · show Host.Outcome.next (returnSent s) = _
    rw [returnSent, sending]
    rfl

/-! ### What happens when a response has been sent -/

theorem executeHead_empty {s : State} (h : s.requests.queue = []) : executeHead s = s := by
  rw [executeHead, h]

theorem executeHead_discarded {s : State} {e : Entry} {rest : List Entry} {r : Response} (queue : s.requests.queue = e :: rest)
    (discarded : e.state = .discarded r) : executeHead s = s := by
  rw [executeHead, queue]
  dsimp only
  rw [discarded]

/-- R185, R186: the only SEG_RESET that is carried out names SEGMENT and has no payload. -/
theorem carriedOut_of_discardsRest {r : Request} {s : State} (h : discardsRest r (perform r s).2 = true) :
    r.code = 5 ∧ r.target = 255 ∧ r.length = 0 ∧ r.payload = [] := by
  simp only [discardsRest, Bool.and_eq_true, decide_eq_true_eq] at h
  obtain ⟨named, completed⟩ := h
  have checked := perform_checked named s
  have code : r.code = 5 := (code_of_requestName named).symm
  have target : r.target.toNat = 255 := by
    by_contra other
    rw [checked.target other] at completed
    cases completed
  have accepted : ¬ (r.length.toNat ≠ r.payload.length ∨ 512 < r.length.toNat ∨ ¬ RequestName.segReset.acceptsLength r.payload) := by
    intro wrong
    rw [checked.length target wrong] at completed
    cases completed
  simp only [not_or, not_not, ne_eq] at accepted
  obtain ⟨agrees, -, empty⟩ := accepted
  have payload : r.payload = [] := List.length_eq_zero_iff.mp empty
  rw [payload] at agrees
  exact ⟨code, BitVec.eq_of_toNat_eq target, BitVec.eq_of_toNat_eq agrees, payload⟩

/-- Settles O36: what a request does, and what it is answered, does not depend on what waits behind it. -/
theorem responseSentExecutesTheNext : Obligations.ResponseSentExecutesTheNext := by
  unfold Obligations.ResponseSentExecutesTheNext
  intro s
  refine ⟨fun e₀ sending queue => ?_, fun e₀ e rest r sending queue discarded => ?_,
    fun e₀ e rest sending queue waiting refused => ?_, fun sending => ?_⟩
  · have behind : s.headSent.requests.queue = [] := congrArg List.tail queue
    rw [exec_serviceResponseSent, responseSent_head sending, executeHead_empty behind, State.headSent, queue]
    rfl
  · have behind : s.headSent.requests.queue = e :: rest := congrArg List.tail queue
    rw [exec_serviceResponseSent, responseSent_head sending, executeHead_discarded behind discarded, State.headSent, queue]
    rfl
  · intro u
    have quiet : u.quiet := ⟨rfl, fun free => nomatch free⟩
    have behind : s.headSent.requests.queue = e :: rest := congrArg List.tail queue
    have performed : perform e.request s.headSent
        = (modRequests (fun _ => s.headSent.requests) (perform e.request u).1, (perform e.request u).2) :=
      perform_answers e.request (fun _ => s.headSent.requests) u
    have keeps : discardsRest e.request (perform e.request s.headSent).2 = false :=
      Bool.eq_false_iff.mpr fun h => refused (carriedOut_of_discardsRest h)
    refine ⟨(perform e.request u).1, (perform e.request u).2, exec_requestCommand_quiet quiet e.request, ?_⟩
    rw [exec_serviceResponseSent, responseSent_head sending, executeHead_waiting behind waiting, keeps, performed]
    simp only [modRequests, answerHead, behind]
    rfl
  · rw [exec_serviceResponseSent, responseSent, sending]
    rfl

end Sys2Proof.Machine
end

section
/-! SUPPORT. The fields of an EXP_LOAD that are out of range (R91, R95), and the requests that load and clear records. -/

namespace Sys2Proof.Machine

/-! ### The fields of an EXP_LOAD payload (R95, R202) -/

section
variable (p : Bytes)

theorem loadCard_reversed (o : Nat) : (loadCard p o).ordered = false ↔ byteAt p (o + 6) < byteAt p (o + 4)
    ∨ (byteAt p (o + 6) = byteAt p (o + 4) ∧ byteAt p (o + 7) < byteAt p (o + 5)) := by
  show decide (byteAt p (o + 4) < byteAt p (o + 6) ∨ (byteAt p (o + 4) = byteAt p (o + 6) ∧ byteAt p (o + 5) ≤ byteAt p (o + 7)))
    = false ↔ _
  rw [decide_eq_false_iff_not]
  omega

theorem loadCards_any : ((loadCards p).any fun c => !c.ordered) = true
    ↔ ∃ j, j < byteAt p 9 ∧ (loadCard p (10 + 8 * j)).ordered = false := by
  simp [loadCards, loadSubstitutes]

theorem loadEntries_any (test : ExpSub → Prop) [DecidablePred test] : ((loadEntries p).any fun e => decide (test e)) = true
    ↔ ∃ j, j < loadSubs p ∧ test (loadSub p (loadBaseAt p + 5 + 6 * j)) := by
  simp [loadEntries]

theorem loadRequirements_any : ((loadRequirements p).any fun c => decide (c > 1)) = true
    ↔ ∃ j, j < loadSubs p ∧ 1 < byteAt p (loadBaseAt p + 5 + 6 * j + 5) := by
  simp [loadRequirements]

/-- Positions repeat when two entries have one. -/
theorem loadPositions_not_nodup : ¬ ((loadEntries p).map ExpSub.position).Nodup ↔ ∃ k, k < loadSubs p ∧ ∃ j, j < k ∧
    byteAt p (loadBaseAt p + 5 + 6 * j) = byteAt p (loadBaseAt p + 5 + 6 * k) := by
  have positions : (loadEntries p).map ExpSub.position = (List.range (loadSubs p)).map fun k => byteAt p (loadBaseAt p + 5 + 6 * k) := by
    simp [loadEntries, loadSub, Function.comp_def]
  rw [positions, List.Nodup, List.pairwise_map, List.pairwise_iff_getElem]
  simp only [List.getElem_range, List.length_range]
  push Not
  constructor
  · rintro ⟨j, k, hj, hk, less, same⟩
    exact ⟨k, hk, j, less, same⟩
  · rintro ⟨k, hk, j, less, same⟩
    exact ⟨j, k, Nat.lt_trans less hk, hk, less, same⟩

theorem loadOutLength_eq : loadOutLength p = numAt16 p (loadBaseAt p)
    + ((List.range (loadSubs p)).map fun j => byteAt p (loadBaseAt p + 5 + 6 * j + 3)).sum := by
  simp only [loadOutLength, loadEntries, List.map_map]
  rfl

theorem loadInLength_eq : loadInLength p = numAt16 p (loadBaseAt p + 2)
    + ((List.range (loadSubs p)).map fun j => byteAt p (loadBaseAt p + 5 + 6 * j + 4)).sum := by
  simp only [loadInLength, loadEntries, List.map_map]
  rfl

/-- The checks of the sub-module list (field 5). -/
theorem loadOutOfRange_subs : loadOutOfRange p 5 = true ↔ LoadBad p 5 := by
  have bad : LoadBad p 5 ↔ (8 < loadSubs p
      ∨ (∃ j, j < loadSubs p ∧ (7 < byteAt p (loadBaseAt p + 5 + 6 * j) ∨ 64 < byteAt p (loadBaseAt p + 5 + 6 * j + 3)
          ∨ 64 < byteAt p (loadBaseAt p + 5 + 6 * j + 4) ∨ 1 < byteAt p (loadBaseAt p + 5 + 6 * j + 5)))
      ∨ (∃ k, k < loadSubs p ∧ ∃ j, j < k ∧ byteAt p (loadBaseAt p + 5 + 6 * j) = byteAt p (loadBaseAt p + 5 + 6 * k))
      ∨ 256 < loadOutLength p ∨ 256 < loadInLength p) := by
    rw [loadOutLength_eq, loadInLength_eq]
    rfl
  rw [bad, loadOutOfRange]
  simp only [Bool.or_eq_true, decide_eq_true_eq, loadEntries_any, Bool.not_eq_true', decide_eq_false_iff_not,
    loadPositions_not_nodup, loadRequirements_any, loadSub, gt_iff_lt, and_or_left, exists_or]
  exact iff_of_eq (by ac_rfl)

theorem loadOutOfRange_iff (k : Nat) : loadOutOfRange p k = true ↔ LoadBad p k := by
  have longest : Config.imageMax = 1440 := rfl
  match k with
  | 0 => exact decide_eq_true_iff
  | 1 => 
    rw [loadOutOfRange, Bool.not_eq_true']
    exact loadCard_reversed p 1
  | 2 =>
    rw [loadOutOfRange, Bool.or_eq_true, decide_eq_true_iff, loadCards_any]
    simp only [loadCard_reversed]
    rfl
  | 3 => exact decide_eq_true_iff
  | 4 => exact decide_eq_true_iff
  | 5 => exact loadOutOfRange_subs p
  | 6 => exact decide_eq_true_iff
  | 7 =>
    have bad : LoadBad p 7 ↔ 1440 < loadOutOffset p + loadOutLength p := by rw [loadOutLength_eq]; rfl
    rw [loadOutOfRange, decide_eq_true_iff, bad]
    omega
  | 8 =>
    have bad : LoadBad p 8 ↔ 1440 < loadInOffset p + loadInLength p := by rw [loadInLength_eq]; rfl
    rw [loadOutOfRange, decide_eq_true_iff, bad]
    omega
  | 9 => exact decide_eq_true_iff
  | 10 => exact decide_eq_true_iff
  | 11 => exact decide_eq_true_iff
  | 12 => exact decide_eq_true_iff
  | 13 => exact decide_eq_true_iff
  | 14 => exact decide_eq_true_iff
  | n + 15 => exact ⟨fun h => absurd h Bool.false_ne_true, fun h => h.elim⟩

theorem LoadBad.lt {k : Nat} (h : LoadBad p k) : k < 15 := by
  by_contra high
  obtain ⟨n, rfl⟩ : ∃ n, k = n + 15 := ⟨k - 15, by omega⟩
  exact h

/-- R95: the first field out of range is the one refused. -/
theorem loadRangeError_of_first {k : Nat} (bad : LoadBad p k) (before : ∀ m, m < k → ¬ LoadBad p m) : loadRangeError p = some k := by
  refine List.find?_eq_some_iff_getElem.mpr ⟨(loadOutOfRange_iff p k).mpr bad, k, by simpa using bad.lt, by simp, fun m hm => ?_⟩
  have good : loadOutOfRange p m = false := Bool.eq_false_iff.mpr fun e => before m hm ((loadOutOfRange_iff p m).mp e)
  simp [good]

theorem loadRangeError_none (good : ∀ k, loadOutOfRange p k = false) : loadRangeError p = none :=
  List.find?_eq_none.mpr fun k _ => by rw [good k]; nofun

end

/-! ### EXP_LOAD and EXP_CLEAR -/

section
variable {tag : Byte} {i : SlotIx} {p : Bytes} {s t : State} {a : Answer}

theorem exec_expLoad (quiet : s.quiet) (length : RequestName.expLoad.acceptsLength p) (short : p.length ≤ 512)
    (h : expLoad p i s = (t, a)) : exec (.expLoad tag (slotByte i) (BitVec.ofNat 16 p.length) p) s
      = .next (t.answered (requestFor .expLoad tag (slotByte i) p) a) := by
  have performed : perform (requestFor .expLoad tag (slotByte i) p) s = expLoad p i s :=
    slotRequest_requestFor .expLoad tag i p (ok := fun n => decide (n = loadImpliedLength p)) (expLoad p) s short
      (decide_eq_true ((expLoad_acceptsLength p).mp length))
  exact exec_row (name := .expLoad) quiet (performed.trans h)

theorem exec_expClear (quiet : s.quiet) (h : expClear i s = (t, a)) :
    exec (.expClear tag (slotByte i) 0 []) s = .next (t.answered (requestFor .expClear tag (slotByte i) []) a) := by
  have performed : perform (requestFor .expClear tag (slotByte i) []) s = expClear i s :=
    slotRequest_requestFor .expClear tag i [] (ok := exactly 0) expClear s (by simp) rfl
  exact exec_row (name := .expClear) (payload := []) quiet (performed.trans h)

theorem CtxState.refusesRecord_iff (x : CtxState) : x.refusesRecord = true ↔
    x ∈ [.rateTraining, .runWait, .runInrush, .parameterizing, .ready, .starting, .admitPending] := by
  cases x <;> decide

theorem expLoad_range {k : Nat} (h : loadRangeError p = some k) : expLoad p i s = (s, refuseRange k) := by
  rw [expLoad, h]

theorem expLoad_state (good : loadRangeError p = none) (h : (s.ctx i).state.refusesRecord = true) :
    expLoad p i s = (s, refuse .state) := by
  simp only [expLoad, good, if_pos h]

theorem expLoad_accepted (good : loadRangeError p = none) (h : (s.ctx i).state.refusesRecord = false) :
    expLoad p i s = (actOnLoad i (loadRecord p) (setExpected i (some (loadRecord p)) s),
      done (.windowLengths (loadRecord p).outLength (loadRecord p).inLength)) := by
  simp only [expLoad, good, h, Bool.false_eq_true, if_false]

theorem expClear_state (h : (s.ctx i).state.refusesRecord = true) : expClear i s = (s, refuse .state) := if_pos h

theorem expClear_absent (h : (s.ctx i).state.refusesRecord = false) (absent : s.expected i = none) :
    expClear i s = (s, done .none) := by
  simp [expClear, h, absent]

theorem expClear_accepted (h : (s.ctx i).state.refusesRecord = false) (present : s.expected i ≠ none) :
    expClear i s = (actOnClear i (setExpected i none s), done .none) := by
  have found : ¬ (s.expected i).isNone = true := by simpa using present
  simp only [expClear, h, Bool.false_eq_true, if_false, if_neg found]

end

/-- Settles O18: the checks of EXP_LOAD are those LoadBad spells, and the first that fails gives the index. -/
theorem recordRequestsAreRefused : Obligations.RecordRequestsAreRefused := by
  unfold Obligations.RecordRequestsAreRefused
  intro s tag i p quiet length short answers
  refine ⟨loadOutOfRange_iff p, fun k bad before => ?_, fun refuses => ⟨fun good => ?_, ?_⟩⟩
  · exact exec_expLoad quiet length short (expLoad_range (loadRangeError_of_first p bad before))
  · have inRange : ∀ k, loadOutOfRange p k = false := fun k =>
      Bool.eq_false_iff.mpr fun e => good k ((loadOutOfRange_iff p k).mp e)
    exact exec_expLoad quiet length short (expLoad_state (loadRangeError_none p inRange) ((CtxState.refusesRecord_iff _).mpr refuses))
  · exact exec_expClear quiet (expClear_state ((CtxState.refusesRecord_iff _).mpr refuses))

end Sys2Proof.Machine
end

section
/-! SUPPORT. What an event at one slot means for the slots that wait in READY (Rechecked, R160): nothing but the re-checks that an
ARMED window given up starts. -/

namespace Sys2Proof.Machine

/-- A pass beside a report, whichever is taken first. -/
theorem besidePass_cases (due : Bool) (report : State → State) (s : State) :
    ∃ u : State, Beside False s u ∧ Beside False (report u) (besidePass due report s) := by
  unfold besidePass
  split
  · unfold eitherOrder
    dsimp only
    split
    · exact ⟨_, (Beside.choices _ _).trans (Beside.pass _), .refl _⟩
    · exact ⟨_, Beside.choices _ _, Beside.pass _⟩
  · exact ⟨s, .refl s, .refl _⟩

/-- No slot that waits in READY has an entry in the power-up queue. -/
def ReadyOutOfQueue (s : State) : Prop := ∀ j, (s.ctx j).state = .ready → ∀ e ∈ s.power.queue, e.slot ≠ j

theorem PowerOk.readyOutOfQueue {s : State} (h : PowerOk s) : ReadyOutOfQueue s := by
  intro j ready
  refine no_entry_of_entriesIn ((h.entries j).trans ?_)
  rw [Context.entry, ready]

section
variable {i : SlotIx} {s t u v : State}

/-- The slots that wait in READY without hold stand, and none of them has an entry in the queue. -/
structure ReadyStand (i : SlotIx) (s v : State) : Prop where
  evolves : Evolves s v
  trunk : v.trunk = s.trunk
  slot : ∀ j, j ≠ i → (s.ctx j).state = .ready → v.slot j = s.slot j
  queue : ∀ j, j ≠ i → (s.ctx j).state = .ready → ∀ e ∈ v.power.queue, e.slot ≠ j

theorem ReadyOutOfQueue.stand (h : ReadyOutOfQueue s) (i : SlotIx) : ReadyStand i s s :=
  ⟨.refl s, rfl, fun _ _ _ => rfl, fun j _ ready => h j ready⟩

theorem ReadyStand.becomes (h : ReadyStand i s u) {x : Slot} (b : Becomes i x u v) : ReadyStand i s v :=
  ⟨h.evolves.trans b.evolves, b.trunk.trans h.trunk, fun j hj ready => (b.others j hj).trans (h.slot j hj ready),
    fun j hj ready e he => h.queue j hj ready e (b.queue e he)⟩

theorem ReadyStand.pass (h : ReadyStand i s u) (b : Beside False u v) : ReadyStand i s v :=
  ⟨h.evolves.trans b.evolves, b.trunk.trans h.trunk,
    fun j hj ready => (b.slot j (h.queue j hj ready) fun f => f.elim).trans (h.slot j hj ready),
    fun j hj ready => b.noEntry (h.queue j hj ready)⟩

/-- Without re-checks the slots that wait stand. -/
theorem ReadyStand.rechecked_none (h : ReadyStand i s t) (unarmed : (s.map i).input.isArmed = false) : Rechecked i s t := by
  intro j hj ready hold
  have same := h.slot j hj ready
  refine ⟨by rw [State.map, same]; rfl, by rw [State.slotPower, same]; rfl, ?_⟩
  rw [if_neg (by simp [unarmed])]
  exact ⟨by rw [State.ctx, same]; rfl, by rw [State.link, same]; rfl⟩

/-- R160: the re-checks that the disarming of slot `i` starts, with a pass that may follow. -/
theorem ReadyStand.rechecked (h : ReadyStand i s v) (b : Beside False (recheckIf (s.map i).input.isArmed v) t) :
    Rechecked i s t := by
  cases armed : (s.map i).input.isArmed with
  | false =>
    rw [armed] at b
    exact (h.pass b).rechecked_none armed
  | true =>
    rw [armed] at b
    have checks : recheckIf true v = recheckAll v := rfl
    rw [checks] at b
    intro j hj ready hold
    have same := h.slot j hj ready
    have queue := h.queue j hj ready
    have beside := Beside.recheckAll v
    have after : t.slot j = (recheckAll v).slot j :=
      b.slot j (by rw [recheckAll_power]; exact queue) fun f => f.elim
    have ctx : v.ctx j = s.ctx j := congrArg Slot.ctx same
    have map : v.map j = s.map j := congrArg Slot.map same
    have rechecked := recheckAll_rechecks v j
    simp only [ctx, ownRetiring_eq_false_iff, map] at rechecked
    refine ⟨?_, ?_, ?_⟩
    · rw [b.map, beside.map, map]
    · rw [State.slotPower, after]
      exact (recheckAll_slotPower v j).trans (congrArg Slot.power same)
    · rw [armed]
      split
      · next due =>
        rw [if_pos ⟨ready, hold, due.2⟩] at rechecked
        have admission : t.admission j = (recheckAll v).admission j := by
          have own : t.ctx j = (recheckAll v).ctx j := congrArg Slot.ctx after
          exact admission_congr j b.trunk b.map (by rw [own]) (by rw [own]) (by rw [own])
        exact rechecked.through same h.evolves after admission b.evolves b.trunk beside.trunk h.trunk
      · next due =>
        rw [if_neg fun all => due ⟨rfl, all.2.2⟩] at rechecked
        have whole : t.slot j = s.slot j := after.trans (rechecked.trans same)
        exact ⟨congrArg Slot.ctx whole, congrArg Slot.link whole⟩

/-- Switch-off with releases, and what the context then does at its own slot. -/
theorem withReleases_rechecked (free : ReadyOutOfQueue s) {finish : State → State}
    (h : (s.slotPower i).switchOn = false → (s.slotPower i).off = s.slotPower i ∧ (s.ctx i).heldDraw = 0)
    (paired : (s.map i).paired) (own : ∀ t, ∃ x, Becomes i x t (finish t)) : Rechecked i s (withReleases i finish s) := by
  obtain ⟨gone, -, -⟩ := releases_becomes i s h paired
  obtain ⟨u, before, after⟩ := besidePass_cases (s.slotPower i).switchOn
    (fun t => recheckIf (s.map i).input.isArmed (finish t)) (releases i s)
  obtain ⟨x, finished⟩ := own u
  exact ((((free.stand i).becomes gone).pass before).becomes finished).rechecked after

theorem enterWithdrawn_own (reason : Reason) (t : State) : ∃ x, Becomes i x t (enterWithdrawn i reason t) :=
  ⟨_, (enterWithdrawn_becomes i reason t).1⟩

theorem enterFaulted_own (f : Option FaultRecord) (t : State) : ∃ x, Becomes i x t (enterFaulted i f t) := by
  exact ⟨_, (Becomes.modCtx i (fun c => { c with state := .faulted, reason := none, fault := f }) t).trans
    (milestone_becomes i _).1⟩

theorem withdraws_rechecked (reason : Reason) (free : ReadyOutOfQueue s)
    (h : (s.slotPower i).switchOn = false → (s.slotPower i).off = s.slotPower i ∧ (s.ctx i).heldDraw = 0)
    (paired : (s.map i).paired) : Rechecked i s (withReleases i (enterWithdrawn i reason) s) :=
  withReleases_rechecked free h paired (enterWithdrawn_own reason)

theorem definitiveFault_rechecked (kind : FaultKind) (detail : Nat) (free : ReadyOutOfQueue s)
    (h : (s.slotPower i).switchOn = false → (s.slotPower i).off = s.slotPower i ∧ (s.ctx i).heldDraw = 0)
    (paired : (s.map i).paired) : Rechecked i s (definitiveFault i kind detail s) :=
  withReleases_rechecked free h paired (enterFaulted_own _)

/-- R20: a retry. -/
theorem retry_rechecked (free : ReadyOutOfQueue s) : Rechecked i s (retry i s) := by
  obtain ⟨left, -⟩ := leaveQueue_becomes i s
  obtain ⟨standby, -⟩ := backToStandby_becomes i (leaveQueue i s)
  obtain ⟨unpinned, -⟩ := unpin_becomes i (backToStandby i (leaveQueue i s))
  have disarmed := Becomes.modMap i (SlotMap.change Window.disarm) (unpin i (backToStandby i (leaveQueue i s)))
  have entered := Becomes.modCtx i (fun c =>
    { c with state := .linkTraining, reason := none, identity := none, result := none, layout := none, progress := none
             walk := none, download := none }) (disarm i (unpin i (backToStandby i (leaveQueue i s))))
  have stand := ((((free.stand i).becomes left).becomes standby).becomes unpinned).becomes (disarmed.trans entered)
  obtain ⟨u, before, after⟩ := besidePass_cases (decide ((s.ctx i).heldDraw > Config.standbyDraw) || decide (s.power.owner = some i))
    (fun t => recheckIf (s.map i).input.isArmed (baseTraining i t))
    (modCtx i (fun c =>
      { c with state := .linkTraining, reason := none, identity := none, result := none, layout := none, progress := none
               walk := none, download := none }) (disarm i (unpin i (backToStandby i (leaveQueue i s)))))
  obtain ⟨l, trained, -⟩ := baseTraining_becomes i u
  exact ((stand.pass before).becomes trained).rechecked after

/-- A change of the slot itself, its windows left, before the event. -/
theorem Rechecked.after {x : Slot} (b : Becomes i x s u) (armed : (u.map i).input.isArmed = (s.map i).input.isArmed)
    (h : Rechecked i u t) : Rechecked i s t := by
  intro j hj ready hold
  have same := b.others j hj
  have ctx : u.ctx j = s.ctx j := congrArg Slot.ctx same
  have link : u.link j = s.link j := congrArg Slot.link same
  have map : u.map j = s.map j := congrArg Slot.map same
  have power : u.slotPower j = s.slotPower j := congrArg Slot.power same
  obtain ⟨hmap, hpower, rest⟩ := h j hj (by rw [ctx]; exact ready) (by rw [ctx]; exact hold)
  rw [map, ctx, link, armed] at rest
  rw [map] at hmap
  rw [power] at hpower
  refine ⟨hmap, hpower, ?_⟩
  split
  · next due =>
    rw [if_pos due] at rest
    refine ⟨fun passes => ?_, fun r refused => ?_⟩
    · rw [← ctx, ← link]
      exact rest.passes passes
    · obtain ⟨hctx, hlink, posted⟩ := rest.refused r refused
      rw [ctx] at hctx posted
      rw [link] at hlink
      refine ⟨hctx, hlink, fun new => ?_⟩
      rcases posted new with found | lost
      · obtain ⟨later, hlater⟩ := b.evolves.events
        rw [← hlater, List.length_append, ← List.drop_drop] at found
        exact .inl (List.mem_of_mem_drop (by rwa [List.drop_drop, Nat.add_comm, ← List.drop_drop] at found))
      · exact .inr lost
  · next due => rwa [if_neg due] at rest

theorem raiseAttempts_becomes (i : SlotIx) (s : State) :
    Becomes i { s.slot i with ctx := { s.ctx i with attempts := min 3 ((s.ctx i).attempts + 1) } } s (raiseAttempts i s) :=
  Becomes.modCtx i (fun c => { c with attempts := min Config.attemptsMax (c.attempts + 1) }) s

/-- R20: a transient fault. -/
theorem transientFault_rechecked (kind : FaultKind) (free : ReadyOutOfQueue s)
    (h : (s.slotPower i).switchOn = false → (s.slotPower i).off = s.slotPower i ∧ (s.ctx i).heldDraw = 0)
    (paired : (s.map i).paired) : Rechecked i s (transientFault i kind s) := by
  have raised := raiseAttempts_becomes i s
  have free' : ReadyOutOfQueue (raiseAttempts i s) := fun j ready e he => by
    refine free j ?_ e (raised.queue e he)
    by_cases hj : j = i
    · rw [hj] at ready ⊢
      rwa [State.ctx, raised.slot] at ready
    · rwa [State.ctx, raised.others j hj] at ready
  have ctx : (raiseAttempts i s).ctx i = { s.ctx i with attempts := min 3 ((s.ctx i).attempts + 1) } := congrArg Slot.ctx raised.slot
  have power : (raiseAttempts i s).slotPower i = s.slotPower i := (congrArg Slot.power raised.slot).trans rfl
  have map : (raiseAttempts i s).map i = s.map i := (congrArg Slot.map raised.slot).trans rfl
  unfold transientFault
  dsimp only
  split
  · exact .after raised (by rw [map]) (retry_rechecked free')
  · exact .after raised (by rw [map]) (definitiveFault_rechecked _ _ free' (by rw [power, ctx]; exact h) (by rw [map]; exact paired))

end

end Sys2Proof.Machine
end

section
/-! SUPPORT. Matching as a whole state (Matches), and what a record loaded or cleared does to its slot (R96, R97). -/

namespace Sys2Proof.Machine

/-! ### Matching (R101, R107, R112) -/

section
variable (i : SlotIx) (s : State)

/-- R31: the MILESTONE of a context that has just been PARKED. -/
theorem milestone_parked {reason : Reason} {result : MatchResult} (state : (s.ctx i).state = .parked)
    (hreason : (s.ctx i).reason = some reason) (hresult : (s.ctx i).result = some result) : milestone i s
      = post (some i) (.milestone .parked (some reason) (if reason = .mismatch then result.sub else none) none) s := by
  rw [milestone]
  simp only [state, hreason, hresult, Option.some.injEq, Option.bind_some]

theorem park_eq (reason : Reason) (result : MatchResult) (position : Option Nat) (outcome : SetOutcome) (count : Nat) :
    park i reason result position outcome count s =
      (if (s.ctx i).state = .parked ∧ (s.ctx i).reason = some reason ∧ (s.ctx i).result.bind MatchResult.sub = result.sub then id
       else post (some i) (.milestone .parked (some reason) (if reason = .mismatch then result.sub else none) none))
      (post (some i) (.matchDone result.cls result.sub result.substitute position outcome none count) (s.setSlot i
        { s.slot i with
          ctx := { s.ctx i with state := .parked, reason := some reason, result := some result, layout := none } })) := by
  rw [park]
  dsimp only
  rw [modCtx_eq]
  split
  · rfl
  · rw [milestone_parked (reason := reason) (result := result)] <;> simp [post_setSlot]

/-- R127: the pin count of the set a layout names rises. -/
def Store.pinned (st : Store) : Option SetIx → Store
  | some n => { st with sets := st.sets.set n { st.set n with pins := (st.set n).pins + 1 } }
  | none => st

theorem pinFor_eq (set : Option SetIx) : pinFor set s = { s with store := s.store.pinned set } := by
  cases set <;> rfl

theorem forwarded_eq (result : MatchResult) (layout : Layout) (rate : RateCode) (onRelease : Bool) (count : Nat) :
    forwarded i result layout rate onRelease count s =
      { post (some i) (MatchOutcome.event (.forward result layout rate count)) (s.setSlot i
          { s.slot i with ctx := (s.ctx i).matched onRelease (.forward result layout rate count) }) with
        store := s.store.pinned layout.set } := by
  rw [forwarded, pinFor_eq]
  rfl

theorem forwarded_slot (result : MatchResult) (layout : Layout) (rate : RateCode) (onRelease : Bool) (count : Nat) :
    (forwarded i result layout rate onRelease count s).slot i
      = { s.slot i with ctx := (s.ctx i).matched onRelease (.forward result layout rate count) } := by
  rw [forwarded_eq]
  exact slot_setSlot_same s i _

/-- R11, R45: the end of rate training of a context that is not held. -/
theorem enterRunWait_eq : enterRunWait i s =
    pass { s.setSlot i { s.slot i with ctx := { s.ctx i with state := .runWait, reason := none } } with
      power := { s.power with queue := s.power.queue ++
        [{ slot := i, stage := .run, increase := max 150 (((s.ctx i).identity.map Identity.runDraw).getD 0) - 150
           priority := ((s.expected i).map ExpRecord.priority).getD .normal, passedOver := false }] } } := by
  rw [enterRunWait, join_eq, queued, modCtx_eq, expected_setSlot_same]
  rfl

end

/-- R11: hold point 1. -/
theorem holdPointOne_held {i : SlotIx} {s : State} (hold : (s.ctx i).hold = true) : holdPointOne i s = s :=
  if_neg fun h => by rw [hold] at h; cases h.2

theorem holdPointOne_free {i : SlotIx} {s : State} (state : (s.ctx i).state = .rateTraining) (hold : (s.ctx i).hold = false) :
    holdPointOne i s = enterRunWait i s := if_pos ⟨state, hold⟩

/-- R101: matching against an enabled record or none. -/
theorem runMatching_matches {i : SlotIx} {s : State} {c : Identity} (identity : (s.ctx i).identity = some c)
    (enabled : (s.expected i).all ExpRecord.enabled = true) : Matches i c s (runMatching i s) := by
  rw [runMatching_identified identity, if_pos enabled]
  unfold Matches
  generalize judged : matchCard s.store.isClosed c (s.expected i) = o
  change matchCard (fun n => decide ((s.store.set n).state = .closed)) c (s.slot i).expected = o at judged
  dsimp only
  rw [judged]
  cases o with
  | parked reason result position outcome count =>
    dsimp only [endMatching]
    rw [park_eq]
    by_cases same : (s.ctx i).state = .parked ∧ (s.ctx i).reason = some reason ∧ (s.ctx i).result.bind MatchResult.sub = result.sub
    · rw [if_pos same]
      exact (if_pos same).symm
    · rw [if_neg same]
      exact (if_neg same).symm
  | forward result layout rate count =>
    dsimp only [endMatching]
    generalize release : ((s.expected i).any fun r => decide (r.admitMode = .onRelease)) = onRelease
    change ((s.slot i).expected.any fun r => decide (r.admitMode = .onRelease)) = onRelease at release
    rw [release, goForward_eq]
    have slot := forwarded_slot i s result layout rate onRelease count
    have ctx : (forwarded i result layout rate onRelease count s).ctx i
        = (s.ctx i).matched onRelease (.forward result layout rate count) := congrArg Slot.ctx slot
    by_cases zero : rate = 0
    · rw [if_pos zero]
      cases hold : ((s.ctx i).matched onRelease (.forward result layout rate count)).hold with
      | true =>
        rw [holdPointOne_held (by rw [ctx]; exact hold), forwarded_eq]
        exact ((if_neg (not_not.mpr zero)).trans (if_pos hold)).symm
      | false =>
        have known : ((s.ctx i).matched onRelease (.forward result layout rate count)).identity = some c := identity
        have record : (forwarded i result layout rate onRelease count s).expected i = s.expected i := (congrArg Slot.expected slot).trans rfl
        rw [holdPointOne_free (by rw [ctx]; rfl) (by rw [ctx]; exact hold), enterRunWait_eq, slot, ctx, record, known, forwarded_eq]
        exact ((if_neg (not_not.mpr zero)).trans (if_neg (ne_true_of_eq_false hold))).symm
    · have link : (forwarded i result layout rate onRelease count s).link i = s.link i := (congrArg Slot.link slot).trans rfl
      rw [if_neg zero, send_request_eq, slot, link, forwarded_eq]
      exact (if_pos zero).symm

/-! ### A record loaded or cleared (R96, R97, R99) -/

section
variable {i : SlotIx} {r : ExpRecord} {s : State}

theorem actOnLoad_posts (h : (s.ctx i).state.postsChange = true) : actOnLoad i r s
    = post (some i) (.expectChanged (s.ctx i).state false (layoutDiffers (s.ctx i).layout r)) s := if_pos h

theorem actOnLoad_enabled (h : (s.ctx i).state.postsChange = false) (enabled : r.enabled = true)
    (state : (s.ctx i).state ≠ .parked) : actOnLoad i r s = s := by
  simp [actOnLoad, h, enabled, state]

theorem actOnLoad_parked (h : (s.ctx i).state = .parked) (enabled : r.enabled = true) : actOnLoad i r s = runMatching i s := by
  simp [actOnLoad, h, enabled, CtxState.postsChange]

theorem actOnLoad_disabled (h : (s.ctx i).state.postsChange = false) (disabled : r.enabled = false)
    (withdrawn : (s.ctx i).state.withdrawnByRecord = true) : actOnLoad i r s = withReleases i (enterWithdrawn i .disabled) s := by
  simp [actOnLoad, h, disabled, withdrawn]

theorem actOnLoad_disabled_idle (h : (s.ctx i).state.postsChange = false) (disabled : r.enabled = false)
    (idle : (s.ctx i).state.withdrawnByRecord = false) : actOnLoad i r s = s := by
  simp [actOnLoad, h, disabled, idle]

theorem actOnClear_posts (h : (s.ctx i).state.postsChange = true) :
    actOnClear i s = post (some i) (.expectChanged (s.ctx i).state true true) s := if_pos h

theorem actOnClear_parked (h : (s.ctx i).state = .parked) : actOnClear i s = runMatching i s := by
  simp [actOnClear, h, CtxState.postsChange]

theorem actOnClear_idle (h : (s.ctx i).state.postsChange = false) (state : (s.ctx i).state ≠ .parked) : actOnClear i s = s := by
  simp [actOnClear, h, state]

end

theorem CtxState.postsChange_iff (x : CtxState) : x.postsChange = true ↔ x ∈ [.running, .draining, .stopping] := by
  cases x <;> decide

/-- R99: the placement of a record is that of the admitted layout. -/
theorem layoutDiffers_eq_false_iff (l : Layout) (r : ExpRecord) : layoutDiffers (some l) r = false ↔
    l.outWindow.offset = r.outOffset ∧ l.outWindow.length = r.outLength ∧ l.inWindow.offset = r.inOffset
      ∧ l.inWindow.length = r.inLength ∧ l.fill = r.fill ∧ l.set = r.set := by
  have spans (w : Span) (offset length : Nat) :
      w = { offset := offset, length := length } ↔ w.offset = offset ∧ w.length = length := by
    cases w
    simp
  simp only [layoutDiffers, Bool.or_eq_false_iff, decide_eq_false_iff_not, ne_eq, not_not, spans, and_assoc]

/-- Settles O19. -/
theorem expLoadStoresTheRecord : Obligations.ExpLoadStoresTheRecord := by
  unfold Obligations.ExpLoadStoresTheRecord
  intro s tag i p quiet length short good record st stored answers
  have state : (stored.ctx i).state = st := congrArg Context.state (ctx_setSlot_same s i _)
  have answer {t : State} (accepts : st.refusesRecord = false) (act : actOnLoad i record stored = t) : answers t := by
    refine exec_expLoad quiet length short ?_
    rw [expLoad_accepted (loadRangeError_none p good) accepts, setExpected_eq]
    exact congrArg (·, _) act
  refine ⟨fun idle => ?_, fun early enabled => ?_, fun serving => ⟨layoutDiffers (s.ctx i).layout record, ?_, fun l layout => ?_⟩⟩
  · have tests : st.refusesRecord = false ∧ st.postsChange = false ∧ st.withdrawnByRecord = false ∧ st ≠ .parked := by
      revert idle
      cases st <;> decide
    obtain ⟨accepts, posts, stays, other⟩ := tests
    refine answer accepts ?_
    cases enabled : record.enabled with
    | true => exact actOnLoad_enabled (by rw [state]; exact posts) enabled (by rw [state]; exact other)
    | false => exact actOnLoad_disabled_idle (by rw [state]; exact posts) enabled (by rw [state]; exact stays)
  · have tests : st.refusesRecord = false ∧ st.postsChange = false ∧ st ≠ .parked := by
      revert early
      cases st <;> decide
    obtain ⟨accepts, posts, other⟩ := tests
    exact answer accepts (actOnLoad_enabled (by rw [state]; exact posts) enabled (by rw [state]; exact other))
  · have accepts : st.refusesRecord = false := by
      revert serving
      cases st <;> decide
    have layout : (stored.ctx i).layout = (s.ctx i).layout := congrArg Context.layout (ctx_setSlot_same s i _)
    have posted := actOnLoad_posts (i := i) (r := record) (s := stored) (by rw [state]; exact (CtxState.postsChange_iff st).mpr serving)
    rw [state, layout] at posted
    exact answer accepts posted
  · rw [layout]
    exact layoutDiffers_eq_false_iff l record

/-- Settles O20. -/
theorem disabledRecordWithdraws : Obligations.DisabledRecordWithdraws := by
  unfold Obligations.DisabledRecordWithdraws
  intro s tag i p quiet power map length short good record disabled early
  let stored := s.setSlot i { s.slot i with expected := some record }
  have ctx : stored.ctx i = s.ctx i := ctx_setSlot_same s i _
  have tests : (s.ctx i).state.refusesRecord = false ∧ (s.ctx i).state.postsChange = false
      ∧ (s.ctx i).state.withdrawnByRecord = true := by
    revert early
    cases (s.ctx i).state <;> decide
  obtain ⟨accepts, posts, withdrawn⟩ := tests
  refine ⟨withReleases i (enterWithdrawn i .disabled) stored, exec_expLoad quiet length short ?_, ?_⟩
  · rw [expLoad_accepted (loadRangeError_none p good) accepts, setExpected_eq,
      actOnLoad_disabled (by rw [ctx]; exact posts) disabled (by rw [ctx]; exact withdrawn)]
  · have slotPower : stored.slotPower i = s.slotPower i := slotPower_setSlot_same s i _
    have windows : stored.map i = s.map i := map_setSlot_same s i _
    exact withReleases_withdraws i .disabled stored (by rw [slotPower, ctx]; exact power.off i) (by rw [windows]; exact map.paired i)

/-- Settles O21. -/
theorem expClearRemovesTheRecord : Obligations.ExpClearRemovesTheRecord := by
  unfold Obligations.ExpClearRemovesTheRecord
  intro s tag i quiet st cleared answers accepts
  have accepted : st.refusesRecord = false := Bool.eq_false_iff.mpr fun h => accepts ((CtxState.refusesRecord_iff st).mp h)
  have state : (cleared.ctx i).state = st := congrArg Context.state (ctx_setSlot_same s i _)
  have answer {t : State} (present : s.expected i ≠ none) (act : actOnClear i cleared = t) : answers t := by
    refine exec_expClear quiet ?_
    rw [expClear_accepted accepted present, setExpected_eq]
    exact congrArg (·, _) act
  refine ⟨fun absent => exec_expClear quiet (expClear_absent accepted absent), fun present idle => answer present ?_,
    fun present serving => answer present ?_⟩
  · have tests : st.postsChange = false ∧ st ≠ .parked := by
      revert idle
      cases st <;> decide
    exact actOnClear_idle (by rw [state]; exact tests.1) (by rw [state]; exact tests.2)
  · have posted := actOnClear_posts (i := i) (s := cleared) (by rw [state]; exact (CtxState.postsChange_iff st).mpr serving)
    rwa [state] at posted

/-- Settles O22. -/
theorem parkedCardIsMatchedAgain : Obligations.ParkedCardIsMatchedAgain := by
  unfold Obligations.ParkedCardIsMatchedAgain
  intro s tag i c quiet parked identity matchedAs
  have accepts : (s.ctx i).state.refusesRecord = false := by rw [parked]; rfl
  have matches_ (record : Option ExpRecord) (enabled : record.all ExpRecord.enabled = true) :
      matchedAs record (runMatching i (s.setSlot i { s.slot i with expected := record })) :=
    runMatching_matches ((congrArg Context.identity (ctx_setSlot_same s i _)).trans identity)
      (by rw [expected_setSlot_same]; exact enabled)
  have still (record : Option ExpRecord) : ((s.setSlot i { s.slot i with expected := record }).ctx i).state = .parked :=
    (congrArg Context.state (ctx_setSlot_same s i _)).trans parked
  refine ⟨fun p length short good enabled => ⟨_, exec_expLoad quiet length short ?_, matches_ (some (loadRecord p)) enabled⟩,
    fun present => ⟨_, exec_expClear quiet ?_, matches_ none rfl⟩⟩
  · rw [expLoad_accepted (loadRangeError_none p good) accepts, setExpected_eq, actOnLoad_parked (still _) enabled]
  · rw [expClear_accepted accepts present, setExpected_eq, actOnClear_parked (still _)]

end Sys2Proof.Machine
end

section
/-! SUPPORT. The requests to a slot context: SLOT_HOLD, SLOT_RELEASE, SLOT_RESTART and SLOT_WITHDRAW. -/

namespace Sys2Proof.Machine

section
variable {tag : Byte} {i : SlotIx} {s t : State} {a : Answer}

theorem exec_slotHold (quiet : s.quiet) : exec (.slotHold tag (slotByte i) 0 []) s
    = .next ((s.setSlot i { s.slot i with ctx := { s.ctx i with hold := true } }).answered
        (requestFor .slotHold tag (slotByte i) []) (done .none)) := by
  have performed : perform (requestFor .slotHold tag (slotByte i) []) s = slotHold i s :=
    slotRequest_requestFor .slotHold tag i [] (ok := exactly 0) slotHold s (by simp) rfl
  exact exec_row (name := .slotHold) (payload := []) quiet performed

theorem exec_slotRelease (quiet : s.quiet) (h : release i s = t) : exec (.slotRelease tag (slotByte i) 0 []) s
    = .next (t.answered (requestFor .slotRelease tag (slotByte i) []) (done .none)) := by
  have performed : perform (requestFor .slotRelease tag (slotByte i) []) s = (release i s, done .none) :=
    slotRequest_requestFor .slotRelease tag i [] (ok := exactly 0) (fun i s => (release i s, done .none)) s (by simp) rfl
  rw [h] at performed
  exact exec_row (name := .slotRelease) (payload := []) quiet performed

theorem exec_slotRestart (quiet : s.quiet) (h : slotRestart i s = (t, a)) : exec (.slotRestart tag (slotByte i) 0 []) s
    = .next (t.answered (requestFor .slotRestart tag (slotByte i) []) a) := by
  have performed : perform (requestFor .slotRestart tag (slotByte i) []) s = slotRestart i s :=
    slotRequest_requestFor .slotRestart tag i [] (ok := exactly 0) slotRestart s (by simp) rfl
  exact exec_row (name := .slotRestart) (payload := []) quiet (performed.trans h)

theorem exec_slotWithdraw (quiet : s.quiet) (h : slotWithdraw i s = (t, a)) : exec (.slotWithdraw tag (slotByte i) 0 []) s
    = .next (t.answered (requestFor .slotWithdraw tag (slotByte i) []) a) := by
  have performed : perform (requestFor .slotWithdraw tag (slotByte i) []) s = slotWithdraw i s :=
    slotRequest_requestFor .slotWithdraw tag i [] (ok := exactly 0) slotWithdraw s (by simp) rfl
  exact exec_row (name := .slotWithdraw) (payload := []) quiet (performed.trans h)

end

/-! ### SLOT_RELEASE (R19) -/

theorem LinkEngine.rateSettled_iff (l : LinkEngine) : l.rateSettled = true ↔ l.link = .up ∧ l.pipe = .idle ∧ l.next = none := by
  simp [LinkEngine.rateSettled, and_assoc]

section
variable {i : SlotIx} {s : State}

/-- The state in which a released context goes on. -/
def State.unheld (s : State) (i : SlotIx) : State := s.setSlot i { s.slot i with ctx := { s.ctx i with hold := false } }

theorem unheld_slot (i : SlotIx) (s : State) : (s.unheld i).slot i = { s.slot i with ctx := { s.ctx i with hold := false } } :=
  slot_setSlot_same s i _

theorem unheld_ctx (i : SlotIx) (s : State) : (s.unheld i).ctx i = { s.ctx i with hold := false } := ctx_setSlot_same s i _

theorem unheld_link (i : SlotIx) (s : State) : (s.unheld i).link i = s.link i := link_setSlot_same s i _

theorem unheld_map (i j : SlotIx) (s : State) : (s.unheld i).map j = s.map j := modCtx_map i j (fun c => { c with hold := false }) s

theorem release_elsewhere (training : (s.ctx i).state ≠ .rateTraining) (ready : (s.ctx i).state ≠ .ready) :
    release i s = s.unheld i := by
  have state : ((modCtx i (fun c => { c with hold := false }) s).ctx i).state = (s.ctx i).state := by rw [modCtx_ctx_same]
  unfold release
  dsimp only
  rw [state]
  split
  · next h => exact absurd h training
  · next h => exact absurd h ready
  · rfl

theorem release_training (training : (s.ctx i).state = .rateTraining) :
    release i s = if (s.link i).rateSettled then enterRunWait i (s.unheld i) else s.unheld i := by
  have state : ((modCtx i (fun c => { c with hold := false }) s).ctx i).state = .rateTraining := by rw [modCtx_ctx_same, training]
  unfold release
  dsimp only
  rw [state, modCtx_link]
  rfl

theorem release_ready (ready : (s.ctx i).state = .ready) : release i s = tryAdmit i (s.unheld i) := by
  have state : ((modCtx i (fun c => { c with hold := false }) s).ctx i).state = .ready := by rw [modCtx_ctx_same, ready]
  unfold release
  dsimp only
  rw [state]
  rfl

theorem unheld_admission (i : SlotIx) (s : State) : (s.unheld i).admission i = s.admission i :=
  admission_congr i rfl (unheld_map i · s) (by rw [unheld_ctx]) (by rw [unheld_ctx]) (by rw [unheld_ctx])

theorem unheld_ownRetiring (i : SlotIx) (s : State) : (s.unheld i).ownRetiring i = s.ownRetiring i := by
  rw [State.ownRetiring, unheld_map, State.ownRetiring]

end

/-- A context whose state is the one it is given. -/
theorem Context.with_state {c : Context} {x : CtxState} (h : c.state = x) (reason : Option Reason) :
    { c with state := x, reason := reason } = { c with reason := reason } := by
  rw [← h]

/-- Settles O26. -/
theorem holdAndRelease : Obligations.HoldAndRelease := by
  unfold Obligations.HoldAndRelease
  intro s tag i quiet c y u atPoint releases
  refine ⟨exec_slotHold quiet, fun training ready => exec_slotRelease quiet (release_elsewhere training ready),
    fun training away => exec_slotRelease quiet ?_, fun training settled => exec_slotRelease quiet ?_,
    fun ready => ⟨fun retiring => exec_slotRelease quiet ?_, fun out inp => ⟨fun passes => exec_slotRelease quiet ?_,
      fun r refused => exec_slotRelease quiet ?_⟩⟩⟩
  · rw [release_training training, if_neg fun e => away ((LinkEngine.rateSettled_iff _).mp e)]
    rfl
  · rw [release_training training, if_pos ((LinkEngine.rateSettled_iff _).mpr settled), enterRunWait_eq, unheld_slot, unheld_ctx]
    unfold State.unheld
    rw [setSlot_setSlot, expected_setSlot_same]
    rfl
  · rw [release_ready ready]
    refine tryAdmit_of_not fun h => ?_
    obtain ⟨out, inp⟩ := (ownRetiring_eq_false_iff s i).mp ((unheld_ownRetiring i s).symm.trans h.2.2)
    rcases retiring with e | e
    · rw [out] at e; cases e
    · rw [inp] at e; cases e
  · have due : ((s.unheld i).ctx i).state = .ready ∧ ((s.unheld i).ctx i).hold = false ∧ (s.unheld i).ownRetiring i = false := by
      rw [unheld_ctx, unheld_ownRetiring]
      exact ⟨ready, rfl, (ownRetiring_eq_false_iff s i).mpr ⟨out, inp⟩⟩
    rw [release_ready ready, tryAdmit_passes due ((unheld_admission i s).trans passes), unheld_slot, unheld_ctx, unheld_link]
    exact setSlot_setSlot s i _ _
  · have due : ((s.unheld i).ctx i).state = .ready ∧ ((s.unheld i).ctx i).hold = false ∧ (s.unheld i).ownRetiring i = false := by
      rw [unheld_ctx, unheld_ownRetiring]
      exact ⟨ready, rfl, (ownRetiring_eq_false_iff s i).mpr ⟨out, inp⟩⟩
    rw [release_ready ready, tryAdmit_refused due ((unheld_admission i s).trans refused), refuseAdmission_eq, unheld_slot, unheld_ctx,
      Context.with_state (c := { s.ctx i with hold := false }) ready]
    unfold State.unheld
    by_cases same : (s.ctx i).reason = some r.reason
    · rw [if_pos (show ({ s.ctx i with hold := false } : Context).reason = some r.reason from same), setSlot_setSlot]
      exact (if_pos same).symm
    · rw [if_neg (show ({ s.ctx i with hold := false } : Context).reason ≠ some r.reason from same), ← post_setSlot, setSlot_setSlot]
      exact (if_neg same).symm

/-! ### SLOT_RESTART (R28) -/

/-- R28, R165: the windows of a slot that restarts: ARMED ones VACANT, LIVE ones RETIRING. -/
def SlotMap.restarted (m : SlotMap) : SlotMap := m.released.change Window.retire

section
variable {m : SlotMap} {v w : Span}

theorem SlotMap.retire_live (out : m.output = .live v) (inp : m.input = .live w) :
    m.change Window.retire = { m with output := .retiring v, input := .retiring w } := by
  obtain ⟨o, n, tables, latest, reported⟩ := m
  subst out inp
  rfl

theorem SlotMap.restarted_live (out : m.output = .live v) (inp : m.input = .live w) :
    m.restarted = { m with output := .retiring v, input := .retiring w } := by
  have kept : m.released = m := by rw [SlotMap.released, out, inp]
  rw [SlotMap.restarted, kept, SlotMap.retire_live out inp]

/-- Two windows that are not LIVE are only given up. -/
theorem SlotMap.restarted_released (paired : m.paired) (out : ∀ v, m.output ≠ .live v) : m.restarted = m.released := by
  obtain ⟨o, n, tables, latest, reported⟩ := m
  cases o with
  | live v => exact absurd rfl (out v)
  | vacant =>
    cases n with
    | vacant =>
      obtain ⟨hout, hlatest⟩ := paired
      subst hout hlatest
      rfl
    | _ => exact paired.elim
  | armed v =>
    cases n with
    | armed w => rfl
    | _ => exact paired.elim
  | retiring v =>
    cases n with
    | retiring w => rfl
    | _ => exact paired.elim

end

theorem restartSettling_becomes (i : SlotIx) (s : State) : Becomes i
    { s.slot i with
      ctx := { Context.reset with state := .settling, hold := (s.ctx i).hold }
      power := (s.slotPower i).restart
      map := (s.map i).change Window.retire } s (restartSettling i s) := by
  have retired := Becomes.modMap i (SlotMap.change Window.retire) s
  have cleared := Becomes.modCtx i (fun c => { Context.reset with state := .settling, hold := c.hold }) (retire i s)
  have restarted := Becomes.modPower i SlotPower.restart
    (modCtx i (fun c => { Context.reset with state := .settling, hold := c.hold }) (retire i s))
  refine ((retired.trans cleared).trans restarted).eq ?_
  simp [retire, State.ctx, State.slotPower, State.map]

/-- Settles O27. -/
theorem restartSettlesTheSlot : Obligations.RestartSettlesTheSlot := by
  unfold Obligations.RestartSettlesTheSlot
  intro s tag i quiet power map restarts
  refine ⟨fun empty => exec_slotRestart quiet (if_pos empty), fun present =>
    ⟨withReleases i (restartSettling i) s, exec_slotRestart quiet (if_neg present), ?_⟩⟩
  have paired := map.paired i
  have own (t : State) (given : t.slot i = (s.slot i).givenUp) : Becomes i
      { s.slot i with
        ctx := { Context.reset with state := .settling, hold := (s.ctx i).hold }
        power := (s.slotPower i).off.restart, link := (s.link i).gone, map := (s.map i).restarted } t (restartSettling i t) :=
    (restartSettling_becomes i t).eq (by rw [State.ctx, State.slotPower, State.map, given]; rfl)
  obtain ⟨slot, queue, pins, kept, -⟩ := withReleases_gives i (restartSettling i) _ s (power.off i) paired (by nofun)
    fun t given => ⟨own t given, rfl⟩
  refine ⟨?_, queue, pins, kept,
    withReleases_rechecked power.readyOutOfQueue (power.off i) paired fun t => ⟨_, restartSettling_becomes i t⟩⟩
  rw [slot]
  generalize s.map i = m at paired
  obtain ⟨o, n, tables, latest, reported⟩ := m
  cases o with
  | live v =>
    cases n with
    | live w => rw [SlotMap.restarted_live rfl rfl]; rfl
    | _ => exact paired.elim
  | _ => rw [SlotMap.restarted_released paired (by nofun)]; rfl

/-! ### SLOT_WITHDRAW (R29) -/

section
variable {i : SlotIx} {s : State}

theorem enterDraining_eq (cause : Reason) (i : SlotIx) (s : State) : enterDraining i cause s = s.setSlot i { s.slot i with
    ctx := { s.ctx i with state := .draining, reason := some cause }, map := (s.map i).change Window.retire } := by
  rw [enterDraining, retire, modMap_eq, modCtx_setSlot]
  rfl

theorem enterWithdrawn_eq (reason : Reason) (i : SlotIx) (s : State) :
    enterWithdrawn i reason s = post (some i) (.milestone .withdrawn (some reason) none none)
      (s.setSlot i { s.slot i with ctx := { s.ctx i with state := .withdrawn, reason := some reason } }) := by
  rw [enterWithdrawn, milestone, modCtx_ctx_same, modCtx_eq]

theorem slotWithdraw_of {t : State} (present : (s.ctx i).state ≠ .empty) (settled : (s.ctx i).state ≠ .settling)
    (h : withdraw i s = t) : slotWithdraw i s = (t, done .none) := by
  rw [slotWithdraw, if_neg (not_or.mpr ⟨present, settled⟩), h]

/-- The states that SLOT_WITHDRAW leaves by giving up what the slot holds. -/
theorem withdraw_released (bringUp : (s.ctx i).state ∈ [CtxState.standbyWait, .standbyInrush, .linkTraining, .identifying, .parked,
    .rateTraining, .runWait, .runInrush, .parameterizing, .ready, .starting, .admitPending]) :
    slotWithdraw i s = (withReleases i (enterWithdrawn i .command) s, done .none) := by
  refine slotWithdraw_of ?_ ?_ ?_
  · intro e; rw [e] at bringUp; simp at bringUp
  · intro e; rw [e] at bringUp; simp at bringUp
  · unfold withdraw
    split
    iterate 7 next e => exact absurd bringUp (by rw [e]; decide)
    rfl

end

/-- Settles O28. -/
theorem withdrawEndsTheSlot : Obligations.WithdrawEndsTheSlot := by
  unfold Obligations.WithdrawEndsTheSlot
  intro s tag i quiet c withdraws
  refine ⟨fun early => exec_slotWithdraw quiet (if_pos (by simpa using early)), fun ended => exec_slotWithdraw quiet ?_,
    fun v w running out inp => exec_slotWithdraw quiet ?_, fun draining => exec_slotWithdraw quiet ?_,
    fun faulted => exec_slotWithdraw quiet ?_, fun bringUp power map =>
    ⟨withReleases i (enterWithdrawn i .command) s, exec_slotWithdraw quiet (withdraw_released bringUp),
      withReleases_withdraws i .command s (power.off i) (map.paired i),
      withdraws_rechecked .command power.readyOutOfQueue (power.off i) (map.paired i)⟩⟩
  · rcases List.mem_pair.mp ended with e | e
    all_goals exact slotWithdraw_of (by rw [e]; decide) (by rw [e]; decide) (by rw [withdraw, e])
  · refine slotWithdraw_of (by rw [running]; decide) (by rw [running]; decide) ?_
    rw [withdraw, running, enterDraining_eq, SlotMap.retire_live out inp]
  · refine slotWithdraw_of (by rw [draining]; decide) (by rw [draining]; decide) ?_
    have drains : withdraw i s = modCtx i
        (fun c => { c with reason := if c.reason = some .presenceLost then c.reason else some .command }) s := by
      rw [withdraw, draining]
    have reason : (if (s.ctx i).reason = some .presenceLost then (s.ctx i).reason else some .command)
        = if (s.ctx i).reason = some .presenceLost then some .presenceLost else some .command := by
      split
      · assumption
      · rfl
    rw [drains, modCtx_eq, reason]
  · refine slotWithdraw_of (by rw [faulted]; decide) (by rw [faulted]; decide) ?_
    rw [withdraw, faulted]
    exact enterWithdrawn_eq .command i s

end Sys2Proof.Machine
end

section
/-! SUPPORT. The presence lines and the present timer (R33, R34), and a pass over the power-up queue (R46 to R49). -/

namespace Sys2Proof.Machine

/-! ### The presence line (R34) -/

section
variable {i : SlotIx} {s : State}

/-- R34: an assertion of a dropped line, by the debouncer: examined where the slot is EMPTY and ABSENT. -/
theorem lineAsserts_eq (dropped : (s.slotPower i).line = false) :
    lineAsserts i s = s.setSlot i (Slot.examined { s.slot i with power := (s.slotPower i).asserted }) := by
  rw [lineAsserts, if_neg (by rw [dropped]; simp), examineLine_eq, modPower_eq, slot_setSlot_same, setSlot_setSlot]

theorem Slot.examined_elsewhere {x : Slot} (h : x.power.debouncer ≠ .absent ∨ x.ctx.state ≠ .empty) : x.examined = x :=
  if_neg fun all => h.elim (absurd all.2.1 ·) (absurd all.2.2 ·)

theorem SlotPower.asserted_absent {p : SlotPower} (h : p.debouncer = .absent) : p.asserted = { p with line := true } := by
  rw [SlotPower.asserted, h]

theorem SlotPower.asserted_rising {p : SlotPower} {interval : Nat} (h : p.debouncer = .rising interval) :
    p.asserted = { p with line := true, presentTimer := some interval, absentTimer := none } := by
  rw [SlotPower.asserted, h]

theorem SlotPower.asserted_present {p : SlotPower} (h : p.debouncer = .present) :
    p.asserted = { p with line := true, absentTimer := none } := by
  rw [SlotPower.asserted, h]

theorem SlotPower.dropped_absent {p : SlotPower} (h : p.debouncer = .absent) : p.dropped = { p with line := false } := by
  rw [SlotPower.dropped, h]

theorem SlotPower.dropped_counted {p : SlotPower} (h : p.debouncer ≠ .absent) :
    p.dropped = { p with line := false, presentTimer := none, absentTimer := some 2000000 } := by
  cases e : p.debouncer with
  | absent => exact absurd e h
  | rising interval => rw [SlotPower.dropped, e]; rfl
  | present => rw [SlotPower.dropped, e]; rfl

end

/-- Settles O37. -/
theorem presenceLineChanges : Obligations.PresenceLineChanges := by
  unfold Obligations.PresenceLineChanges
  intro s i x p
  have asserts {q : SlotPower} {y : Slot} (dropped : p.line = false) (line : p.asserted = q)
      (examined : Slot.examined { x with power := q } = y) : exec (.presenceLineAssert i) s = .next (s.setSlot i y) := by
    subst line examined
    exact congrArg Host.Outcome.next (lineAsserts_eq dropped)
  have drops {q : SlotPower} (asserted : p.line = true) (line : p.dropped = q) :
      exec (.presenceLineDrop i) s = .next (s.setSlot i { x with power := q }) := by
    subst line
    exact congrArg Host.Outcome.next (if_pos asserted)
  exact ⟨fun line => congrArg Host.Outcome.next (if_pos line),
    fun line debouncer empty => asserts line (SlotPower.asserted_absent debouncer) (if_pos ⟨rfl, debouncer, empty⟩),
    fun line debouncer present => asserts line (SlotPower.asserted_absent debouncer) (Slot.examined_elsewhere (.inr present)),
    fun interval line debouncer => asserts line (SlotPower.asserted_rising debouncer)
      (Slot.examined_elsewhere (.inl fun e => by cases debouncer.symm.trans e)),
    fun line debouncer => asserts line (SlotPower.asserted_present debouncer)
      (Slot.examined_elsewhere (.inl fun e => by cases debouncer.symm.trans e)),
    fun line => congrArg Host.Outcome.next (if_neg (ne_true_of_eq_false line)),
    fun line debouncer => drops line (SlotPower.dropped_absent debouncer),
    fun line debouncer => drops line (SlotPower.dropped_counted debouncer)⟩

/-! ### The present timer (R34, R6) -/

section
variable {i : SlotIx} {s : State}

theorem reportPresent_elsewhere (h : (s.ctx i).state ≠ .settling) : reportPresent i s = s := if_neg h

theorem reportPresent_disabled (settling : (s.ctx i).state = .settling) {r : ExpRecord} (record : s.expected i = some r)
    (disabled : r.enabled = false) : reportPresent i s = enterWithdrawn i .disabled s := by
  rw [reportPresent, if_pos settling, if_pos (by rw [record]; simpa using disabled)]

theorem reportPresent_joins (settling : (s.ctx i).state = .settling) (enabled : ∀ r, s.expected i = some r → r.enabled = true) :
    reportPresent i s = pass { s.setSlot i { s.slot i with ctx := { s.ctx i with state := .standbyWait, reason := none } } with
      power := { s.power with queue := s.power.queue ++
        [{ slot := i, stage := .standby, increase := 150, priority := ((s.expected i).map ExpRecord.priority).getD .normal
           passedOver := false }] } } := by
  have none : (s.expected i).any (fun r => !r.enabled) = false := by
    cases record : s.expected i with
    | none => rfl
    | some r => simp [enabled r record]
  rw [reportPresent, if_pos settling, if_neg (by rw [none]; simp), join_eq, queued, modCtx_eq, expected_setSlot_same]
  rfl

end

/-- Settles O38. -/
theorem presentCardJoinsTheQueue : Obligations.PresentCardJoinsTheQueue := by
  unfold Obligations.PresentCardJoinsTheQueue
  intro s i runs x power priority
  let u := s.setSlot i { x with power := power }
  have expires {t : State} (h : reportPresent i u = t) : exec (.presentTimerExpiry i) s = .next t :=
    congrArg Host.Outcome.next ((if_neg (by simpa using runs)).trans h)
  have ctx : u.ctx i = s.ctx i := ctx_setSlot_same s i _
  have record : u.expected i = s.expected i := expected_setSlot_same s i _
  refine ⟨fun away => expires (reportPresent_elsewhere (by rwa [ctx])), fun settling ⟨r, known, disabled⟩ => expires ?_,
    fun settling enabled => expires ?_⟩
  · rw [reportPresent_disabled (by rwa [ctx]) (record.trans known) disabled, enterWithdrawn_eq, ctx]
    simp only [u, slot_setSlot_same, setSlot_setSlot]
    rfl
  · rw [reportPresent_joins (by rwa [ctx]) (by rwa [record]), ctx, record]
    simp only [u, slot_setSlot_same, setSlot_setSlot]
    rfl

/-! ### A pass (R46 to R49) -/

/-- R48: the queue with the entries of `l` passed over. -/
def markPassed (l queue : List PowerEntry) : List PowerEntry :=
  queue.map fun x => if ∃ e ∈ l, e.passedOver = false ∧ x.slot = e.slot then { x with passedOver := true } else x

/-- R48: the events of the entries of `l` passed over for the first time. -/
def postShort (s : State) (l : List PowerEntry) (b : EventBlock) : EventBlock :=
  (l.filter fun e => !e.passedOver).foldl (fun b e => b.append
    { slot := some e.slot, cycle := s.trunk.lastCycle
      body := .budgetShort e.stage e.increase s.power.committed s.power.budget }) b

/-- The state in which the entries of `l` have been passed over. -/
def State.passedOver (s : State) (l : List PowerEntry) : State :=
  { s with power := { s.power with queue := markPassed l s.power.queue }, events := postShort s l s.events }

theorem passedOver_nil (s : State) : s.passedOver [] = s := by
  have queue : markPassed [] s.power.queue = s.power.queue := by simp [markPassed]
  rw [State.passedOver, queue]
  rfl

theorem markPassed_cons_old {e : PowerEntry} (old : e.passedOver = true) (l queue : List PowerEntry) :
    markPassed (e :: l) queue = markPassed l queue := by
  simp [markPassed, old]

theorem markPassed_cons_new {e : PowerEntry} (fresh : e.passedOver = false) (l queue : List PowerEntry) :
    markPassed (e :: l) queue
      = markPassed l (queue.map fun x => if x.slot = e.slot then { x with passedOver := true } else x) := by
  simp only [markPassed, List.map_map, List.map_inj_left, Function.comp, List.mem_cons, exists_eq_or_imp, fresh, true_and]
  intro x hx
  by_cases same : x.slot = e.slot <;> by_cases later : ∃ a ∈ l, a.passedOver = false ∧ x.slot = a.slot <;>
    simp only [same, later, true_or, or_true, or_false, if_true, if_false]
  all_goals simp_all

theorem passOver_passedOver (e : PowerEntry) (l : List PowerEntry) (s : State) :
    (passOver e s).passedOver l = s.passedOver (e :: l) := by
  cases old : e.passedOver with
  | true =>
    have same : passOver e s = s := if_pos old
    simp only [same, State.passedOver, markPassed_cons_old old, postShort, List.filter_cons, old, Bool.not_true, if_neg Bool.false_ne_true]
  | false =>
    have marks : passOver e s = _ := if_neg (ne_true_of_eq_false old)
    rw [marks]
    simp only [State.passedOver, markPassed_cons_new old, postShort, List.filter_cons, old, Bool.not_false, if_true, List.foldl_cons]
    rfl

/-- R48: entries that do not fit are passed over. -/
theorem examine_passedOver (l rest : List PowerEntry) (s : State) (short : ∀ e ∈ l, s.fits e = false) :
    examine (l ++ rest) s = examine rest (s.passedOver l) := by
  induction l generalizing s with
  | nil => rw [passedOver_nil]; rfl
  | cons e l ih =>
    have fits (b : PowerEntry) : (passOver e s).fits b = s.fits b := by
      obtain ⟨q, power, -⟩ := passOver_power e s
      simp only [State.fits, power]
    have first : examine (e :: l ++ rest) s = examine (l ++ rest) (passOver e s) :=
      if_neg (ne_true_of_eq_false (short e (.head l)))
    rw [first, ih (passOver e s) fun b hb => (fits b).trans (short b (.tail e hb)), passOver_passedOver]

/-- In a queue of distinct slots an entry is known by its slot. -/
theorem markPassed_eq {l queue : List PowerEntry} (distinct : (queue.map PowerEntry.slot).Nodup) (sub : ∀ e ∈ l, e ∈ queue) :
    markPassed l queue = queue.map fun e => if e ∈ l then { e with passedOver := true } else e := by
  refine List.map_congr_left fun x hx => ?_
  have known : ∀ e ∈ l, x.slot = e.slot → x = e := fun e he same =>
    List.inj_on_of_nodup_map distinct hx (sub e he) same
  by_cases inside : x ∈ l
  · rw [if_pos inside]
    cases old : x.passedOver with
    | false => rw [if_pos ⟨x, inside, old, rfl⟩]
    | true =>
      have marked : { x with passedOver := true } = x := by rw [← old]
      rw [marked, ite_self]
  · rw [if_neg inside, if_neg]
    rintro ⟨e, he, -, same⟩
    exact inside (known e he same ▸ he)

theorem mem_queueOrder {e : PowerEntry} {queue : List PowerEntry} (h : e ∈ queueOrder queue) : e ∈ queue := by
  rcases List.mem_append.mp h with h | h
  all_goals exact (List.mem_filter.mp h).1

section
variable {e : PowerEntry}

/-- R49: the power block after a grant. -/
def State.granted (s : State) (e : PowerEntry) : State :=
  { s with power := { s.power with
      queue := s.power.queue.filter fun b => decide (b.slot ≠ e.slot)
      committed := s.power.committed + e.increase, owner := some e.slot } }

theorem grant_standby_eq (s : State) (h : e.stage = .standby) :
    grant e s = (s.granted e).setSlot e.slot { s.slot e.slot with
      ctx := { s.ctx e.slot with state := .standbyInrush, reason := none, heldDraw := 150 }
      power := { s.slotPower e.slot with
        switchOn := true, goodSeen := false, minimumTimer := some 20000000, deadlineTimer := some 50000000 } } := by
  unfold grant
  dsimp only
  rw [h]
  dsimp only
  rw [grantStandby, modPower_eq, modCtx_setSlot]
  rfl

theorem grant_run_eq (s : State) (h : e.stage = .run) :
    grant e s = (s.granted e).setSlot e.slot { s.slot e.slot with
      ctx := { s.ctx e.slot with state := .runInrush, reason := none, heldDraw := (s.ctx e.slot).runDraw }
      link := (s.link e.slot).asks .enableRun } := by
  unfold grant
  dsimp only
  rw [h]
  dsimp only
  rw [grantRun, send_request_eq, modCtx_eq, slot_setSlot_same, setSlot_setSlot, link_setSlot_same]
  rfl

end

/-- Settles O43. -/
theorem passGrantsTheFirstThatFits : Obligations.PassGrantsTheFirstThatFits := by
  unfold Obligations.PassGrantsTheFirstThatFits
  intro s
  refine ⟨fun held => if_pos (by simpa [Option.isSome_iff_ne_none] using held), fun free distinct => ?_⟩
  intro order fits short marked
  have examines : pass s = examine order s := if_neg (by simp [free])
  have unfit (e : PowerEntry) (h : ¬ fits e) : s.fits e = false := decide_eq_false h
  have queue (l : List PowerEntry) (sub : ∀ e ∈ l, e ∈ order) : markPassed l s.power.queue = marked l :=
    markPassed_eq distinct fun e he => mem_queueOrder (sub e he)
  refine ⟨fun none => ?_, fun l e m split before fit => ?_⟩
  · have all := examine_passedOver order [] s fun e he => unfit e (none e he)
    rw [List.append_nil] at all
    rw [examines, all, examine, State.passedOver, queue order fun e he => he]
    rfl
  · intro t
    have sub : ∀ b ∈ l, b ∈ order := fun b hb => split ▸ List.mem_append_left _ hb
    have passed : s.passedOver l = { s with power := { s.power with queue := marked l }, events := short l s.events } := by
      rw [State.passedOver, queue l sub]
      rfl
    have fitting : (s.passedOver l).fits e = true := by
      rw [passed]
      exact decide_eq_true fit
    have granted : t = grant e (s.passedOver l) := by
      have first : examine (e :: m) (s.passedOver l) = grant e (s.passedOver l) := if_pos fitting
      rw [← first, ← examine_passedOver l (e :: m) s fun b hb => unfit b (before b hb), ← split, ← examines]
    cases stage : e.stage with
    | standby =>
      rw [grant_standby_eq _ stage, passed] at granted
      rw [granted]
      exact ⟨rfl, rfl, rfl, rfl, rfl, fun j hj => slot_setSlot_ne _ _ hj, fun _ => slot_setSlot_same _ _ _, by nofun⟩
    | run =>
      rw [grant_run_eq _ stage, passed] at granted
      rw [granted]
      exact ⟨rfl, rfl, rfl, rfl, rfl, fun j hj => slot_setSlot_ne _ _ hj, by nofun, fun _ => slot_setSlot_same _ _ _⟩

end Sys2Proof.Machine
end

section
/-! SUPPORT. An event at one slot with a pass or re-checks around it: what it leaves of the other slots (Kept), and what a slot is
that gives up what it holds on the way (R5, R47, R160). -/

namespace Sys2Proof.Machine

section
variable {i : SlotIx} {x : Slot} {s t u : State}

/-- What an event at slot `i` leaves of the others, with what can be said of the queue: `Kept` in a form that composes. -/
structure Apart (i : SlotIx) (s t : State) : Prop where
  evolves : Evolves s t
  trunk : t.trunk = s.trunk
  retained : t.retained = s.retained
  others : ∀ j, j ≠ i → t.slot j = s.slot j ∨ (∃ e ∈ s.power.queue, e.slot = j)
    ∨ ((s.ctx j).state = .ready ∧ (s.ctx j).hold = false)
  queue : ∀ e ∈ t.power.queue, ∃ e' ∈ s.power.queue, e'.slot = e.slot
  ready : ∀ j, j ≠ i → (t.ctx j).state = .ready → (s.ctx j).state = .ready ∧ (s.ctx j).hold = (t.ctx j).hold

theorem Apart.kept (h : Apart i s t) : Kept i s t := ⟨h.evolves, h.trunk, h.retained, h.others⟩

theorem Apart.refl (i : SlotIx) (s : State) : Apart i s s :=
  ⟨.refl s, rfl, rfl, fun _ _ => .inl rfl, fun e he => ⟨e, he, rfl⟩, fun _ _ ready => ⟨ready, rfl⟩⟩

theorem Apart.trans (a : Apart i s t) (b : Apart i t u) : Apart i s u := by
  refine ⟨a.evolves.trans b.evolves, b.trunk.trans a.trunk, b.retained.trans a.retained, fun j hj => ?_, fun e he => ?_,
    fun j hj ready => ?_⟩
  · rcases b.others j hj with same | ⟨e, he, hs⟩ | ⟨ready, hold⟩
    · rw [same]; exact a.others j hj
    · obtain ⟨e', he', hs'⟩ := a.queue e he
      exact .inr (.inl ⟨e', he', hs'.trans hs⟩)
    · obtain ⟨ready', hold'⟩ := a.ready j hj ready
      exact .inr (.inr ⟨ready', hold'.trans hold⟩)
  · obtain ⟨e', he', hs'⟩ := b.queue e he
    obtain ⟨e'', he'', hs''⟩ := a.queue e' he'
    exact ⟨e'', he'', hs''.trans hs'⟩
  · obtain ⟨ready', hold'⟩ := b.ready j hj ready
    obtain ⟨ready'', hold''⟩ := a.ready j hj ready'
    exact ⟨ready'', hold''.trans hold'⟩

theorem Becomes.apart (b : Becomes i x s t) : Apart i s t :=
  ⟨b.evolves, b.trunk, b.retained, fun j hj => .inl (b.others j hj), fun e he => ⟨e, b.queue e he, rfl⟩,
    fun j hj ready => by
      have same : t.ctx j = s.ctx j := congrArg Slot.ctx (b.others j hj)
      rw [same] at ready ⊢
      exact ⟨ready, rfl⟩⟩

theorem Beside.apart {checks : Prop} (b : Beside checks s t) (i : SlotIx) : Apart i s t :=
  ⟨b.evolves, b.trunk, b.retained,
    fun j _ => (b.slots j).imp_right (Or.imp_right And.right), b.queue, fun j _ ready => b.ready j ready⟩

theorem Apart.noEntry (h : Apart i s t) {j : SlotIx} (none : ∀ e ∈ s.power.queue, e.slot ≠ j) : ∀ e ∈ t.power.queue, e.slot ≠ j := by
  intro e he
  obtain ⟨e', he', same⟩ := h.queue e he
  exact same ▸ none e' he'

/-- A slot replaced, its record kept. -/
theorem Becomes.setSlot (i : SlotIx) (x : Slot) (s : State) (record : x.expected = s.expected i) : Becomes i x s (s.setSlot i x) :=
  Becomes.modSlot i (fun _ => x) s record

theorem Beside.slot_noEntry (b : Beside False s t) (none : ∀ e ∈ s.power.queue, e.slot ≠ i) : t.slot i = s.slot i :=
  b.slot i none fun f => f.elim

/-- A slot as it stands before it gives up what it holds: what the event has done so far concerns it alone, and the passes made. -/
structure Before (i : SlotIx) (s u : State) : Prop where
  apart : Apart i s u
  stand : ReadyStand i s u
  store : u.store = s.store

theorem ReadyOutOfQueue.before (free : ReadyOutOfQueue s) (i : SlotIx) : Before i s s := ⟨.refl i s, free.stand i, rfl⟩

theorem Before.becomes (h : Before i s t) (b : Becomes i x t u) (store : u.store = t.store) : Before i s u :=
  ⟨h.apart.trans b.apart, h.stand.becomes b, store.trans h.store⟩

theorem Before.pass (h : Before i s t) (b : Beside False t u) : Before i s u :=
  ⟨h.apart.trans (b.apart i), h.stand.pass b, b.store.trans h.store⟩

/-- Slot `i` is `x` after it gave up what it held, with the re-checks that this starts. -/
structure Left (i : SlotIx) (x : Slot) (s t : State) : Prop where
  slot : t.slot i = x
  entry : ∀ e ∈ t.power.queue, e.slot ≠ i
  pins : Unpinned (s.ctx i).pinned s t
  kept : Kept i s t
  rechecked : Rechecked i s t

/-- R5, R47, R160: switch-off with releases in the course of an event: what the slot becomes, what is left of the others, and what is
posted. -/
theorem withReleases_left {finish : State → State} (before : Before i s u) (pinned : (u.ctx i).pinned = (s.ctx i).pinned)
    (armed : (u.map i).input.isArmed = (s.map i).input.isArmed)
    (off : (u.slotPower i).switchOn = false → (u.slotPower i).off = u.slotPower i ∧ (u.ctx i).heldDraw = 0)
    (paired : (u.map i).paired) (away : x.ctx.state ≠ .ready)
    (finishes : ∀ v, v.slot i = (u.slot i).givenUp → Becomes i x v (finish v) ∧ (finish v).store = v.store)
    (after : Beside False (withReleases i finish u) t) :
    Left i x s t ∧ ∀ body, (∀ v, v.slot i = (u.slot i).givenUp → Posted (some i) body v (finish v)) → Posted (some i) body s t := by
  obtain ⟨gone, none, unpinned⟩ := releases_becomes i u off paired
  obtain ⟨v, passed, rest⟩ := besidePass_cases (u.slotPower i).switchOn
    (fun t => recheckIf (u.map i).input.isArmed (finish t)) (releases i u)
  have slot : v.slot i = (u.slot i).givenUp := (passed.slot_noEntry none).trans gone.slot
  obtain ⟨finished, store⟩ := finishes v slot
  have checked : Beside True (finish v) (recheckIf (u.map i).input.isArmed (finish v)) := Beside.recheckIf _ _
  have later : Beside False (recheckIf (u.map i).input.isArmed (finish v)) t := rest.trans after
  have last : Beside True (finish v) t := checked.trans later.weaken
  have entry : ∀ e ∈ (finish v).power.queue, e.slot ≠ i := fun e he => passed.noEntry none e (finished.queue e he)
  have apart : Apart i s v := before.apart.trans (gone.apart.trans (passed.apart i))
  refine ⟨⟨?_, last.noEntry entry, fun n => ?_, (apart.trans (finished.apart.trans (last.apart i))).kept, ?_⟩, fun body posts => ?_⟩
  · rw [last.slot i entry fun _ ready => ?_, finished.slot]
    rw [State.ctx, finished.slot] at ready
    exact absurd ready away
  · rw [last.store, store, passed.store, ← pinned, ← before.store]
    exact unpinned n
  · rw [armed] at later
    exact (((before.stand.becomes gone).pass passed).becomes finished).rechecked later
  · exact (posts v slot).extend apart.evolves (by rw [apart.trunk]) last.evolves

/-- The slot that an event gives up is, but for its context, the one that the event found. -/
def SameButCtx (i : SlotIx) (s u : State) : Prop := ∀ c, { (u.slot i).givenUp with ctx := c } = { (s.slot i).givenUp with ctx := c }

theorem Left.givesUp {c : Context} (same : SameButCtx i s u) (h : Left i { (u.slot i).givenUp with ctx := c } s t) : GivesUp i c s t :=
  ⟨h.slot.trans (same c), h.entry, h.pins, h.kept⟩

theorem sameButCtx_refl (i : SlotIx) (s : State) : SameButCtx i s s := fun _ => rfl

/-- R21: a fault with its record. -/
theorem withReleases_left_faulted (before : Before i s u) (pinned : (u.ctx i).pinned = (s.ctx i).pinned)
    (armed : (u.map i).input.isArmed = (s.map i).input.isArmed)
    (off : (u.slotPower i).switchOn = false → (u.slotPower i).off = u.slotPower i ∧ (u.ctx i).heldDraw = 0)
    (paired : (u.map i).paired) (same : SameButCtx i s u) (f : FaultRecord)
    (after : Beside False (withReleases i (enterFaulted i (some f)) u) t) :
    (GivesUp i ((u.ctx i).faulted f) s t ∧ Posted (some i) (.milestone .faulted none none (some (f.kind, f.detail))) s t)
      ∧ Rechecked i s t := by
  obtain ⟨left, posts⟩ := withReleases_left (x := { (u.slot i).givenUp with ctx := (u.ctx i).faulted f }) before pinned armed off
    paired (by simp [Context.faulted])
    (fun v hv => ⟨(enterFaulted_becomes i f v).1.eq (by rw [State.ctx, hv]; rfl), (enterFaulted_becomes i f v).2.1⟩) after
  exact ⟨⟨left.givesUp same, posts _ fun v _ => (enterFaulted_becomes i f v).2.2⟩, left.rechecked⟩

end

/-! ### The allowance (R37, R47) -/

/-- Slot `i` neither holds the allowance nor waits for it. -/
def Out (i : SlotIx) (s : State) : Prop := s.power.owner ≠ some i ∧ ∀ e ∈ s.power.queue, e.slot ≠ i

section
variable {i : SlotIx} {s t : State}

theorem Out.congr (h : Out i s) (power : t.power = s.power) : Out i t := by
  rw [Out, power]
  exact h

theorem Out.examine {l : List PowerEntry} (h : Out i s) (others : ∀ e ∈ l, e.slot ≠ i) : Out i (Machine.examine l s) := by
  induction l generalizing s with
  | nil => exact h
  | cons e l ih =>
    unfold Machine.examine
    split
    · refine ⟨?_, fun b hb => ?_⟩
      · rw [grant_power]
        exact fun same => others e (.head l) (Option.some.inj same)
      · rw [grant_power] at hb
        exact h.2 b (List.mem_filter.mp hb).1
    · refine ih ⟨?_, ?_⟩ fun b hb => others b (.tail e hb)
      · obtain ⟨q, power, -⟩ := passOver_power e s
        rw [power]
        exact h.1
      · exact (Beside.passOver (checks := False) s).noEntry h.2

theorem Out.pass (h : Out i s) : Out i (Machine.pass s) := by
  unfold Machine.pass
  split
  · exact h
  · exact h.examine fun e he => h.2 e (mem_queueOrder he)

theorem Out.besidePass {due : Bool} {report : State → State} (h : Out i s) (reports : ∀ u, Out i u → Out i (report u)) :
    Out i (Machine.besidePass due report s) := by
  unfold Machine.besidePass eitherOrder
  dsimp only
  split
  · split
    · exact reports _ (Out.pass (h.congr rfl))
    · exact Out.pass (reports _ (h.congr rfl))
  · exact reports _ h

theorem freeAllowance_out (none : ∀ e ∈ s.power.queue, e.slot ≠ i) : Out i (freeAllowance i s) := by
  refine ⟨?_, none⟩
  rw [freeAllowance, modRack_power]
  dsimp only
  split
  · exact nofun
  · assumption

theorem Out.withReleases {finish : State → State} (h : Out i s) (finishes : ∀ u, (finish u).power = u.power) :
    Out i (Machine.withReleases i finish s) := by
  have none : ∀ e ∈ (leaveQueue i s).power.queue, e.slot ≠ i := (leaveQueue_becomes i s).2
  have off : Out i (switchOff i (leaveQueue i s)) := by
    unfold switchOff
    split
    · have freed := freeAllowance_out (i := i)
        (s := modRack (fun p => { p with committed := p.committed - ((leaveQueue i s).ctx i).heldDraw }) (leaveQueue i s)) none
      exact freed.congr rfl
    · exact ⟨h.1, none⟩
  have power : (releases i s).power = (switchOff i (leaveQueue i s)).power := by
    unfold releases unpin
    split <;> rfl
  refine (off.congr power).besidePass fun u out => ?_
  unfold recheckIf
  split
  · exact out.congr ((recheckAll_power _).trans (finishes u))
  · exact out.congr (finishes u)

end

end Sys2Proof.Machine
end

section
/-! SUPPORT. The absent timer (R27, R34) and the end of the standby inrush (R38). -/

namespace Sys2Proof.Machine

/-! ### The states and their windows -/

section
variable {i : SlotIx} {s : State}

theorem MapOk.unarmed (h : MapOk s) (away : (s.ctx i).state ≠ .admitPending) : (s.map i).input.isArmed = false := by
  cases armed : (s.map i).input.isArmed with
  | false => rfl
  | true => exact absurd ((h.armed i).mp armed) away

theorem PowerOk.noEntry (h : PowerOk s) (none : (s.ctx i).entry = []) : ∀ e ∈ s.power.queue, e.slot ≠ i :=
  no_entry_of_entriesIn ((h.entries i).trans none)

/-- Two windows that change together are LIVE together. -/
theorem SlotMap.released_live {m : SlotMap} {v w : Span} (out : m.output = .live v) (inp : m.input = .live w) : m.released = m := by
  rw [SlotMap.released, out, inp]

/-- What changes of a slot but its debouncer leaves who waits in READY. -/
theorem ReadyOutOfQueue.congr {t : State} (h : ReadyOutOfQueue s) (ctx : ∀ j, (t.ctx j).state = (s.ctx j).state)
    (queue : t.power.queue = s.power.queue) : ReadyOutOfQueue t := by
  intro j ready
  rw [queue]
  exact h j (ctx j ▸ ready)

/-! ### The absent timer (R27) -/

theorem enterDraining_becomes (cause : Reason) (i : SlotIx) (s : State) : Becomes i { s.slot i with
    ctx := { s.ctx i with state := .draining, reason := some cause }, map := (s.map i).change Window.retire } s (enterDraining i cause s)
    ∧ (enterDraining i cause s).store = s.store := by
  rw [enterDraining_eq]
  exact ⟨.setSlot i _ s rfl, rfl⟩

theorem enterEmpty_dropped (dropped : (s.slotPower i).line = false) : enterEmpty i s
    = post (some i) (.milestone .empty none none none) (s.setSlot i { s.slot i with ctx := (s.ctx i).emptied }) := by
  rw [enterEmpty, modCtx_eq, examineLine, if_neg]
  · rw [milestone, ctx_setSlot_same]
    rfl
  · rintro ⟨line, -⟩
    rw [milestone_slotPower, slotPower_setSlot_same] at line
    exact absurd (dropped.symm.trans line) (by decide)

theorem post_setSlot_becomes {x : Slot} (o : Option SlotIx) (b : EventBody) (record : x.expected = s.expected i) :
    Becomes i x s (post o b (s.setSlot i x)) :=
  ((Becomes.setSlot i x s record).trans (.post i o b _)).eq (slot_setSlot_same s i x)

theorem enterEmpty_becomes (dropped : (s.slotPower i).line = false) :
    Becomes i { s.slot i with ctx := (s.ctx i).emptied } s (enterEmpty i s) ∧ (enterEmpty i s).store = s.store
      ∧ Posted (some i) (.milestone .empty none none none) s (enterEmpty i s) := by
  rw [enterEmpty_dropped dropped]
  exact ⟨post_setSlot_becomes _ _ rfl, rfl, posted_post _ _ (s.setSlot i _)⟩

theorem reportAbsent_empty (state : (s.ctx i).state = .empty) : reportAbsent i s = s := by
  rw [reportAbsent, state]

theorem reportAbsent_settling (state : (s.ctx i).state = .settling) : reportAbsent i s = enterEmpty i s := by
  rw [reportAbsent, state]

theorem reportAbsent_running (state : (s.ctx i).state = .running) :
    reportAbsent i s = withReleases i (enterDraining i .presenceLost) s := by
  rw [reportAbsent, state]

theorem reportAbsent_draining_on (state : (s.ctx i).state = .draining) (on : (s.slotPower i).switchOn = true) :
    reportAbsent i s = withReleases i (modCtx i fun c => { c with reason := some .presenceLost }) s := by
  rw [reportAbsent, state]
  exact if_pos on

theorem reportAbsent_draining_off (state : (s.ctx i).state = .draining) (off : (s.slotPower i).switchOn = false) :
    reportAbsent i s = modCtx i (fun c => { c with reason := some .presenceLost }) s := by
  rw [reportAbsent, state]
  exact if_neg (by rw [off]; decide)

theorem reportAbsent_elsewhere (state : (s.ctx i).state ∉ [CtxState.empty, .settling, .running, .draining]) :
    reportAbsent i s = withReleases i (enterEmpty i) s := by
  unfold reportAbsent
  split
  iterate 4 next e => exact absurd (by rw [e]; decide) state
  rfl

end

/-- Settles O39. -/
theorem absentCardEmptiesTheSlot : Obligations.AbsentCardEmptiesTheSlot := by
  unfold Obligations.AbsentCardEmptiesTheSlot
  intro s i power map runs dropped x u
  have ctx : u.ctx i = s.ctx i := ctx_setSlot_same s i _
  have windows : u.map i = s.map i := map_setSlot_same s i _
  have slotPower : u.slotPower i = { s.slotPower i with debouncer := .absent, absentTimer := none } := slotPower_setSlot_same s i _
  have switch : (u.slotPower i).switchOn = (s.slotPower i).switchOn := by rw [slotPower]
  have line : (u.slotPower i).line = false := by rw [slotPower]; exact dropped
  have free : ReadyOutOfQueue u := power.readyOutOfQueue.congr (fun j => by
    by_cases hj : j = i
    · rw [hj, ctx]
    · rw [State.ctx, slot_setSlot_ne _ _ hj]; rfl) rfl
  have off : (u.slotPower i).switchOn = false → (u.slotPower i).off = u.slotPower i ∧ (u.ctx i).heldDraw = 0 := by
    intro hs
    obtain ⟨still, drawn⟩ := power.off i (switch ▸ hs)
    rw [slotPower, ctx]
    exact ⟨congrArg (fun p : SlotPower => { p with debouncer := .absent, absentTimer := none }) still, drawn⟩
  have paired : (u.map i).paired := windows ▸ map.paired i
  have before := free.before i
  have stands {y : Slot} {t : State} (away : (s.ctx i).state ≠ .admitPending) (b : Becomes i y u t) : Rechecked i u t :=
    (before.stand.becomes b).rechecked_none (by rw [windows]; exact map.unarmed away)
  have running : (s.ctx i).state = .running → Left i { (u.slot i).givenUp with
      ctx := { (u.ctx i).released with state := .draining, reason := some .presenceLost }
      map := (u.map i).released.change Window.retire } u (reportAbsent i u) := fun state =>
    (withReleases_left (finish := enterDraining i .presenceLost) before rfl rfl off paired (by simp)
      (fun v hv => by
        obtain ⟨becomes, store⟩ := enterDraining_becomes .presenceLost i v
        exact ⟨becomes.eq (by rw [State.ctx, State.map, hv]; rfl), store⟩)
      (by rw [reportAbsent_running (ctx ▸ state)]; exact .refl _)).1
  have draining : (s.ctx i).state = .draining → (s.slotPower i).switchOn = true → Left i { (u.slot i).givenUp with
      ctx := { (u.ctx i).released with reason := some .presenceLost } } u (reportAbsent i u) := fun state on =>
    (withReleases_left (finish := modCtx i fun c => { c with reason := some .presenceLost }) before rfl rfl off paired
      (by simp [ctx, state, Context.released])
      (fun v hv => ⟨(Becomes.modCtx i (fun c => { c with reason := some .presenceLost }) v).eq (by rw [State.ctx, hv]; rfl), rfl⟩)
      (by rw [reportAbsent_draining_on (ctx ▸ state) (switch ▸ on)]; exact .refl _)).1
  have elsewhere : (s.ctx i).state ∉ [CtxState.empty, .settling, .running, .draining] →
      Left i { (u.slot i).givenUp with ctx := (u.ctx i).emptied } u (reportAbsent i u)
        ∧ Posted (some i) (.milestone .empty none none none) u (reportAbsent i u) := fun state => by
    obtain ⟨left, posts⟩ := withReleases_left (x := { (u.slot i).givenUp with ctx := (u.ctx i).emptied })
      (finish := enterEmpty i) (t := reportAbsent i u) before rfl rfl off paired
      (by simp [Context.emptied, Context.reset])
      (fun v hv => by
        obtain ⟨becomes, store, -⟩ := enterEmpty_becomes (i := i) (s := v) (by rw [State.slotPower, hv]; exact line)
        exact ⟨becomes.eq (by rw [State.ctx, hv]; rfl), store⟩)
      (by rw [reportAbsent_elsewhere (ctx ▸ state)]; exact .refl _)
    exact ⟨left, posts _ fun v hv => (enterEmpty_becomes (by rw [State.slotPower, hv]; exact line)).2.2⟩
  refine ⟨reportAbsent i u, congrArg Host.Outcome.next (if_neg (by simpa using runs)), ?_, fun state => ?_, fun state => ?_,
    fun state => ?_, fun v w state out inp => ?_, fun state on => ?_, fun state switchedOff => ?_⟩
  · by_cases empty : (s.ctx i).state = .empty
    · rw [reportAbsent_empty (ctx ▸ empty)]
      exact stands (by rw [empty]; decide) (.refl i u)
    by_cases settling : (s.ctx i).state = .settling
    · rw [reportAbsent_settling (ctx ▸ settling)]
      exact stands (by rw [settling]; decide) (enterEmpty_becomes line).1
    by_cases run : (s.ctx i).state = .running
    · exact (running run).rechecked
    by_cases drain : (s.ctx i).state = .draining
    · cases on : (s.slotPower i).switchOn with
      | true => exact (draining drain on).rechecked
      | false =>
        rw [reportAbsent_draining_off (ctx ▸ drain) (switch ▸ on)]
        exact stands (by rw [drain]; decide) (.modCtx i (fun c => { c with reason := some .presenceLost }) u)
    exact (elsewhere (by simp [empty, settling, run, drain])).1.rechecked
  · exact reportAbsent_empty (ctx ▸ state)
  · rw [reportAbsent_settling (ctx ▸ state), enterEmpty_dropped line, ctx]
    exact congrArg _ (setSlot_setSlot s i _ _)
  · obtain ⟨left, posted⟩ := elsewhere state
    rw [ctx] at left
    exact ⟨left.givesUp (sameButCtx_refl i u), posted⟩
  · have left := running state
    rw [ctx, windows] at left
    have slot := left.slot
    refine ⟨congrArg Slot.ctx slot, ?_, congrArg Slot.power slot, (congrArg Slot.link slot).trans ?_, left.kept⟩
    · exact (congrArg Slot.map slot).trans ((congrArg _ (SlotMap.released_live out inp)).trans (SlotMap.retire_live out inp))
    · exact congrArg LinkEngine.gone (link_setSlot_same s i _)
  · have left := draining state on
    rw [ctx] at left
    exact left.givesUp (sameButCtx_refl i u)
  · rw [reportAbsent_draining_off (ctx ▸ state) (switch ▸ switchedOff), modCtx_eq, ctx]
    exact setSlot_setSlot s i _ _

/-! ### The end of the standby inrush (R38) -/

section
variable {i : SlotIx} {s : State}

/-- R58: a base training of an engine that has nothing in progress but a turnaround. -/
theorem LinkEngine.trainBase_idle {l : LinkEngine} (idle : l = { l.gone with turnaround := l.turnaround }) :
    l.trainBase = { l with link := .training, training := some (.base, 0) } := by
  rw [idle]
  rfl

theorem baseTraining_eq (i : SlotIx) (s : State) : baseTraining i s = s.setSlot i { s.slot i with
    ctx := { s.ctx i with rateCode := 0 }, link := (s.link i).trainBase.trains .base 0 } := by
  have link : ((modCtx i (fun c => { c with rateCode := 0 }) (modLink i LinkEngine.trainBase s)).link i) = (s.link i).trainBase := by
    rw [modCtx_link, modLink_link_same]
  rw [baseTraining, send_train_eq i _ (kind := .base) (target := 0) (by rw [link]; rfl), link, modLink_eq, modCtx_setSlot, setSlot_setSlot,
    slot_setSlot_same]
  rfl

/-- R7: the slot of a card whose standby inrush is complete. -/
def Slot.inrushDone (x : Slot) : Slot :=
  { x with ctx := { x.ctx with state := .linkTraining, reason := none, rateCode := 0 }, link := x.link.trainBase.trains .base 0 }

theorem reportInrushComplete_becomes (state : (s.ctx i).state = .standbyInrush) :
    Becomes i (s.slot i).inrushDone s (reportInrushComplete i s) ∧ (reportInrushComplete i s).power = s.power := by
  have reports : reportInrushComplete i s = s.setSlot i (s.slot i).inrushDone := by
    rw [reportInrushComplete, if_pos state, baseTraining_eq, modCtx_eq, slot_setSlot_same, ctx_setSlot_same, link_setSlot_same,
      setSlot_setSlot]
    rfl
  rw [reports]
  exact ⟨.setSlot i _ s rfl, rfl⟩

/-- R38, R37: the allowance freed with the timers of the inrush stopped. -/
theorem freeAllowance_becomes (f : SlotPower → SlotPower) (i : SlotIx) (s : State) :
    Becomes i { s.slot i with power := f (s.slotPower i) } s (freeAllowance i (modPower i f s)) := by
  have freed := Becomes.modRack i (fun p => { p with owner := if p.owner = some i then none else p.owner }) (modPower i f s)
    (fun _ => rfl) (fun _ _ h => h)
  exact ((Becomes.modPower i f s).trans freed).eq (modPower_slot_same ..)

/-- R38, R7, R47: the slot of a completed inrush, and what a pass beside it leaves. -/
theorem inrushComplete_completes (power : PowerOk s) (state : (s.ctx i).state = .standbyInrush) :
    (inrushComplete i s).slot i = Slot.inrushDone { s.slot i with
        power := { s.slotPower i with minimumTimer := none, deadlineTimer := none, goodSeen := false } }
      ∧ (inrushComplete i s).power.owner ≠ some i ∧ Kept i s (inrushComplete i s) := by
  have freed := freeAllowance_becomes (fun p => { p with minimumTimer := none, deadlineTimer := none, goodSeen := false }) i s
  have unqueued := power.noEntry (i := i) (by rw [Context.entry, state])
  obtain ⟨u, before, after⟩ := besidePass_cases true (reportInrushComplete i)
    (freeAllowance i (modPower i (fun p => { p with minimumTimer := none, deadlineTimer := none, goodSeen := false }) s))
  have slot := (before.slot_noEntry (i := i) fun e he => unqueued e (freed.queue e he)).trans freed.slot
  have atInrush : (u.ctx i).state = .standbyInrush := by rw [State.ctx, slot]; exact state
  obtain ⟨done, -⟩ := reportInrushComplete_becomes atInrush
  have out : Out i (inrushComplete i s) := by
    refine Out.besidePass (freeAllowance_out (s := modPower i _ s) unqueued) fun v away => ?_
    by_cases inrush : (v.ctx i).state = .standbyInrush
    · exact away.congr (reportInrushComplete_becomes inrush).2
    · have stays : reportInrushComplete i v = v := if_neg inrush
      rw [stays]
      exact away
  have still : ∀ e ∈ (reportInrushComplete i u).power.queue, e.slot ≠ i :=
    fun e he => before.noEntry (fun e he => unqueued e (freed.queue e he)) e (done.queue e he)
  refine ⟨?_, out.1, (((freed.apart.trans (before.apart i)).trans done.apart).trans (after.apart i)).kept⟩
  rw [inrushComplete, after.slot_noEntry still, done.slot, slot]

end

/-- Settles O40. -/
theorem inrushCompletesWithPowerGood : Obligations.InrushCompletesWithPowerGood := by
  unfold Obligations.InrushCompletesWithPowerGood
  intro s i x p
  have seen {t : State} (h : powerGoodSeen i s = t) : exec (.powerGood i) s = .next t := congrArg Host.Outcome.next h
  have expires {t : State} (h : minimumExpired i s = t) : exec (.inrushMinimumExpiry i) s = .next t := congrArg Host.Outcome.next h
  have watched (on : p.switchOn = true) (deadline : p.deadlineTimer ≠ none) :
      ¬ ((s.slotPower i).switchOn = false ∨ (s.slotPower i).deadlineTimer.isNone = true) := by
    rintro (off | stopped)
    · exact absurd (on.symm.trans off) (by decide)
    · exact deadline (Option.isNone_iff_eq_none.mp stopped)
  have counted (minimum : p.minimumTimer ≠ none) : ¬ (s.slotPower i).minimumTimer.isNone = true :=
    fun stopped => minimum (Option.isNone_iff_eq_none.mp stopped)
  refine ⟨fun off => seen (if_pos (off.imp_right fun e => Option.isNone_iff_eq_none.mpr e)),
    fun stopped => expires (if_pos (Option.isNone_iff_eq_none.mpr stopped)), fun on deadline minimum => seen ?_,
    fun minimum unseen => expires ?_, fun c row power state idle => ?_⟩
  · rw [powerGoodSeen, if_neg (watched on deadline)]
    exact if_pos (Option.isSome_iff_ne_none.mpr minimum)
  · rw [minimumExpired, if_neg (counted minimum)]
    exact if_neg (ne_true_of_eq_false unseen)
  · obtain ⟨slot, owner, kept⟩ := inrushComplete_completes power state
    refine ⟨inrushComplete i s, ?_, ?_, owner, kept⟩
    · rcases row with ⟨rfl, on, deadline, stopped⟩ | ⟨rfl, minimum, good⟩
      · refine seen ?_
        rw [powerGoodSeen, if_neg (watched on deadline)]
        exact if_neg fun runs => Option.isSome_iff_ne_none.mp runs stopped
      · refine expires ?_
        rw [minimumExpired, if_neg (counted minimum)]
        exact if_pos good
    · rw [slot, Slot.inrushDone, LinkEngine.trainBase_idle idle]
      rfl

end Sys2Proof.Machine
end

section
/-! SUPPORT. The faults of the power switch: the power-good deadline and a trip (R22, R38, R40). -/

namespace Sys2Proof.Machine

section
variable {i : SlotIx} {s : State}

theorem LinkEngine.endExchange_eq (l : LinkEngine) : l.endExchange = l.exchangeOver := by
  unfold LinkEngine.endExchange LinkEngine.exchangeOver
  cases l.next with
  | none => rfl
  | some x => cases x <;> rfl

/-- R37: a switch that is turned OFF. -/
def Slot.switchedOff (x : Slot) : Slot :=
  { x with ctx := { x.ctx with heldDraw := 0 }, power := x.power.off, link := x.link.exchangeOver }

theorem switchOff_on_becomes (on : (s.slotPower i).switchOn = true) :
    Becomes i (s.slot i).switchedOff s (switchOff i s) ∧ (switchOff i s).store = s.store := by
  have acts : switchOff i s = _ := if_pos on
  rw [acts]
  have drawn := Becomes.modRack i (fun p => { p with committed := p.committed - (s.ctx i).heldDraw }) s (fun _ => rfl) (fun _ _ h => h)
  have freed := drawn.trans (freeAllowance_becomes SlotPower.off i
    (modRack (fun p => { p with committed := p.committed - (s.ctx i).heldDraw }) s))
  let v := freeAllowance i (modPower i SlotPower.off (modRack (fun p => { p with committed := p.committed - (s.ctx i).heldDraw }) s))
  have cleared := freed.trans (Becomes.modCtx i (fun c => { c with heldDraw := 0 }) v)
  have ended := cleared.trans (Becomes.modLink i LinkEngine.endExchange (modCtx i (fun c => { c with heldDraw := 0 }) v))
  have slot : v.slot i = { s.slot i with power := (s.slotPower i).off } := freed.slot
  refine ⟨ended.eq ?_, rfl⟩
  rw [State.link, cleared.slot, State.ctx, slot]
  exact congrArg (fun l => { (s.slot i).switchedOff with link := l }) (LinkEngine.endExchange_eq (s.link i))

theorem switchedOff_off (x : Slot) : x.switchedOff.power.off = x.switchedOff.power ∧ x.switchedOff.ctx.heldDraw = 0 := ⟨rfl, rfl⟩

/-- What a slot whose switch has been turned OFF still has to give up is what it had. -/
theorem switchedOff_givenUp (x : Slot) : x.switchedOff.givenUp = x.givenUp := rfl

section
variable {u t : State} (slot : u.slot i = (s.slot i).switchedOff)
include slot

theorem sameButCtx_switchedOff : SameButCtx i s u := fun c => by rw [slot, switchedOff_givenUp]

theorem off_switchedOff : (u.slotPower i).switchOn = false → (u.slotPower i).off = u.slotPower i ∧ (u.ctx i).heldDraw = 0 := by
  rw [State.slotPower, State.ctx, slot]
  exact fun _ => switchedOff_off _

theorem ctx_switchedOff : u.ctx i = { s.ctx i with heldDraw := 0 } := congrArg Slot.ctx slot

theorem map_switchedOff : u.map i = s.map i := (congrArg Slot.map slot).trans rfl

end

/-- R38: the deadline runs out. -/
theorem deadlineExpired_faults (power : PowerOk s) (map : MapOk s) (runs : (s.slotPower i).deadlineTimer ≠ none) :
    Faults i .powerGoodTimeout 0 s (deadlineExpired i s) := by
  have state := power.deadline i (.inl (Option.isSome_iff_ne_none.mpr runs))
  have on := power.switches i true (by rw [state]; rfl)
  have unqueued := power.noEntry (i := i) (by rw [Context.entry, state])
  obtain ⟨turned, store⟩ := switchOff_on_becomes on
  obtain ⟨u, passed, after⟩ := besidePass_cases true (reportPowerGoodTimeout i) (switchOff i s)
  have slot := (passed.slot_noEntry (i := i) fun e he => unqueued e (turned.queue e he)).trans turned.slot
  have before := ((power.readyOutOfQueue.before i).becomes turned store).pass passed
  have reports : reportPowerGoodTimeout i u = withReleases i (enterFaulted i (some ((u.ctx i).record .powerGoodTimeout 0))) u :=
    if_pos (by rw [ctx_switchedOff slot]; exact state)
  have expired : deadlineExpired i s = besidePass true (reportPowerGoodTimeout i) (switchOff i s) :=
    if_neg fun stopped => runs (Option.isNone_iff_eq_none.mp stopped)
  rw [reports, ← expired] at after
  have gone := (withReleases_left_faulted before (by rw [ctx_switchedOff slot]) (by rw [map_switchedOff slot]) (off_switchedOff slot)
    (by rw [map_switchedOff slot]; exact map.paired i) (sameButCtx_switchedOff slot) _ after).1
  rw [ctx_switchedOff slot] at gone
  exact gone

/-! ### A trip (R22, R40) -/

theorem faultDraining_becomes (f : FaultRecord) (i : SlotIx) (s : State) :
    Becomes i { s.slot i with
      ctx := { s.ctx i with state := .draining, reason := some .fault, fault := some f }, map := (s.map i).change Window.retire }
      s (enterDraining i .fault (modCtx i (fun c => { c with fault := some f }) s))
    ∧ (enterDraining i .fault (modCtx i (fun c => { c with fault := some f }) s)).store = s.store := by
  have faulted := Becomes.modCtx i (fun c => { c with fault := some f }) s
  obtain ⟨drains, store⟩ := enterDraining_becomes .fault i (modCtx i (fun c => { c with fault := some f }) s)
  refine ⟨(faulted.trans drains).eq ?_, store⟩
  rw [State.ctx, State.map, faulted.slot]
  rfl

theorem reportTrip_running (state : (s.ctx i).state = .running) : reportTrip i s = withReleases i
    (fun t => enterDraining i .fault (modCtx i (fun c => { c with fault := some ((s.ctx i).record .overcurrent 0) }) t)) s := by
  rw [reportTrip, state]

theorem reportTrip_draining (state : (s.ctx i).state = .draining) : reportTrip i s = modCtx i (fun c =>
    { c with fault := some ((s.ctx i).record .overcurrent 0)
             reason := if c.reason = some .linkLost then some .fault else c.reason }) s := by
  rw [reportTrip, state]

theorem reportTrip_stopping (state : (s.ctx i).state = .stopping) : reportTrip i s = withReleases i
    (fun t => enterWithdrawn i .command (modCtx i (fun c => { c with fault := some ((s.ctx i).record .overcurrent 0) }) t)) s := by
  rw [reportTrip, state]

theorem reportTrip_elsewhere (powered : (s.ctx i).state.powered = some true)
    (away : (s.ctx i).state ∉ [CtxState.running, .draining, .stopping]) :
    reportTrip i s = withReleases i (enterFaulted i (some ((s.ctx i).record .overcurrent 0))) s := by
  unfold reportTrip
  dsimp only
  split
  iterate 3 next e => exact absurd (by rw [e]; decide) away
  iterate 5 next e => exact absurd powered (by rw [e]; decide)
  rfl

/-- R22, R40: a trip up to the report, and the report. -/
theorem tripped_cases (power : PowerOk s) (on : (s.slotPower i).switchOn = true) :
    ∃ u : State, Before i s u ∧ u.slot i = (s.slot i).switchedOff ∧ (∀ e ∈ u.power.queue, e.slot ≠ i)
      ∧ Beside False (reportTrip i u) (tripped i s) := by
  obtain ⟨turned, store⟩ := switchOff_on_becomes on
  obtain ⟨left, unqueued⟩ := leaveQueue_becomes i (switchOff i s)
  obtain ⟨u, passed, after⟩ := besidePass_cases true (reportTrip i) (leaveQueue i (switchOff i s))
  have acts : tripped i s = besidePass true (reportTrip i) (leaveQueue i (switchOff i s)) := if_pos on
  rw [← acts] at after
  exact ⟨u, (((power.readyOutOfQueue.before i).becomes turned store).becomes left rfl).pass passed,
    (passed.slot_noEntry unqueued).trans (left.slot.trans turned.slot), passed.noEntry unqueued, after⟩

section
variable (power : PowerOk s) (map : MapOk s) (on : (s.slotPower i).switchOn = true)
include power map on

theorem tripped_running (state : (s.ctx i).state = .running) :
    Left i { (s.slot i).givenUp with
      ctx := { (s.ctx i).released with
        state := .draining, reason := some .fault
        fault := some { kind := .overcurrent, stateAt := (s.ctx i).state, detail := 0, attempts := (s.ctx i).attempts } }
      map := (s.map i).released.change Window.retire } s (tripped i s) := by
  obtain ⟨u, before, slot, -, after⟩ := tripped_cases power on
  have ctx := ctx_switchedOff slot
  have windows := map_switchedOff slot
  rw [reportTrip_running (by rw [ctx]; exact state)] at after
  refine (withReleases_left before (by rw [ctx]) (by rw [windows]) (off_switchedOff slot) (by rw [windows]; exact map.paired i)
    (by simp) (fun v hv => ?_) after).1
  obtain ⟨drains, store⟩ := faultDraining_becomes ((u.ctx i).record .overcurrent 0) i v
  refine ⟨drains.eq ?_, store⟩
  rw [ctx, State.ctx, State.map, hv, slot]
  rfl

theorem tripped_draining (state : (s.ctx i).state = .draining) :
    (tripped i s).slot i = { (s.slot i).switchedOff with
        ctx := { s.ctx i with
          heldDraw := 0
          fault := some { kind := .overcurrent, stateAt := (s.ctx i).state, detail := 0, attempts := (s.ctx i).attempts }
          reason := if (s.ctx i).reason = some .linkLost then some .fault else (s.ctx i).reason } }
      ∧ Kept i s (tripped i s) ∧ Rechecked i s (tripped i s) := by
  obtain ⟨u, before, slot, unqueued, after⟩ := tripped_cases power on
  have ctx := ctx_switchedOff slot
  rw [reportTrip_draining (by rw [ctx]; exact state)] at after
  have faulted := Becomes.modCtx i (fun c =>
    { c with fault := some ((u.ctx i).record .overcurrent 0)
             reason := if c.reason = some .linkLost then some .fault else c.reason }) u
  refine ⟨?_, ((before.apart.trans faulted.apart).trans (after.apart i)).kept,
    ((before.stand.becomes faulted).pass after).rechecked_none (map.unarmed (by rw [state]; decide))⟩
  rw [after.slot_noEntry fun e he => unqueued e (faulted.queue e he), faulted.slot, ctx, slot]
  rfl

theorem tripped_stopping (state : (s.ctx i).state = .stopping) :
    (GivesUp i
      ({ s.ctx i with
        fault := some { kind := .overcurrent, stateAt := (s.ctx i).state, detail := 0, attempts := (s.ctx i).attempts } }.withdrawn
          .command)
      s (tripped i s) ∧ Posted (some i) (.milestone .withdrawn (some .command) none none) s (tripped i s))
      ∧ Rechecked i s (tripped i s) := by
  obtain ⟨u, before, slot, -, after⟩ := tripped_cases power on
  have ctx := ctx_switchedOff slot
  have windows := map_switchedOff slot
  rw [reportTrip_stopping (by rw [ctx]; exact state)] at after
  let record := (u.ctx i).record .overcurrent 0
  obtain ⟨left, posts⟩ := withReleases_left
    (x := { (u.slot i).givenUp with ctx := { u.ctx i with fault := some record }.withdrawn .command })
    before (by rw [ctx]) (by rw [windows]) (off_switchedOff slot) (by rw [windows]; exact map.paired i) (by simp [Context.withdrawn])
    (fun v hv => by
      have faulted := Becomes.modCtx i (fun c => { c with fault := some record }) v
      obtain ⟨ends, store, -⟩ := enterWithdrawn_becomes i .command (modCtx i (fun c => { c with fault := some record }) v)
      refine ⟨(faulted.trans ends).eq ?_, store⟩
      rw [State.ctx, faulted.slot, State.ctx, hv]
      rfl) after
  have given := left.givesUp (sameButCtx_switchedOff slot)
  rw [show record = (u.ctx i).record .overcurrent 0 from rfl, ctx] at given
  refine ⟨⟨given, posts _ fun v _ => ?_⟩, left.rechecked⟩
  have faulted := Becomes.modCtx i (fun c => { c with fault := some record }) v
  exact (enterWithdrawn_becomes i .command _).2.2.extend faulted.evolves (by rw [faulted.trunk]) (.refl _)

theorem tripped_elsewhere (away : (s.ctx i).state ∉ [CtxState.running, .draining, .stopping]) :
    Faults i .overcurrent 0 s (tripped i s) ∧ Rechecked i s (tripped i s) := by
  obtain ⟨u, before, slot, -, after⟩ := tripped_cases power on
  have ctx := ctx_switchedOff slot
  have windows := map_switchedOff slot
  have powered : (s.ctx i).state.powered = some true := by
    cases known : (s.ctx i).state.powered with
    | none =>
      refine absurd ?_ away
      revert known
      cases (s.ctx i).state <;> decide
    | some b => rw [← on, power.switches i b known]
  rw [reportTrip_elsewhere (by rw [ctx]; exact powered) (by rw [ctx]; exact away)] at after
  obtain ⟨gone, rechecked⟩ := withReleases_left_faulted before (by rw [ctx]) (by rw [windows]) (off_switchedOff slot)
    (by rw [windows]; exact map.paired i) (sameButCtx_switchedOff slot) _ after
  rw [ctx] at gone
  exact ⟨gone, rechecked⟩

theorem tripped_rechecked : Rechecked i s (tripped i s) := by
  by_cases running : (s.ctx i).state = .running
  · exact (tripped_running power map on running).rechecked
  by_cases draining : (s.ctx i).state = .draining
  · exact (tripped_draining power map on draining).2.2
  by_cases stopping : (s.ctx i).state = .stopping
  · exact (tripped_stopping power map on stopping).2
  exact (tripped_elsewhere power map on (by simp [running, draining, stopping])).2

end

end

/-- Settles O41. -/
theorem powerFaultsTurnTheSwitchOff : Obligations.PowerFaultsTurnTheSwitchOff := by
  unfold Obligations.PowerFaultsTurnTheSwitchOff
  intro s i x
  refine ⟨fun off => congrArg Host.Outcome.next (if_neg (ne_true_of_eq_false off)),
    fun stopped => congrArg Host.Outcome.next (if_pos (Option.isNone_iff_eq_none.mpr stopped)), fun power map =>
    ⟨fun runs => ⟨_, rfl, deadlineExpired_faults power map runs⟩, fun on =>
      ⟨_, rfl, tripped_rechecked power map on, fun away => (tripped_elsewhere power map on away).1, fun v w state out inp => ?_,
        fun state => ?_, fun state => (tripped_stopping power map on state).1⟩⟩⟩
  · have left := tripped_running power map on state
    have windows : (s.map i).released.change Window.retire = { s.map i with output := .retiring v, input := .retiring w } :=
      (congrArg _ (SlotMap.released_live out inp)).trans (SlotMap.retire_live out inp)
    rw [windows] at left
    exact ⟨left.slot, left.kept⟩
  · obtain ⟨slot, kept, -⟩ := tripped_draining power map on state
    exact ⟨slot, kept⟩

end Sys2Proof.Machine
end

section
/-! SUPPORT. The end of the run phase (R12, R39): the precheck of a download (R129, R130) and entry to READY (R14). -/

namespace Sys2Proof.Machine

section
variable {i : SlotIx} {s : State}

theorem precheck_format {d : Download} {p : ParamDecl} (other : d.format ≠ p.format) : precheck d (some p) = some 65535 := if_pos other

theorem precheck_length {d : Download} {p : ParamDecl} (same : d.format = p.format) (long : p.maxLength < d.length) :
    precheck d (some p) = some 65534 := (if_neg (not_not.mpr same)).trans (if_pos long)

theorem precheck_passes {d : Download} {o : Option ParamDecl} (h : ∀ p, o = some p → d.format = p.format ∧ d.length ≤ p.maxLength) :
    precheck d o = none := by
  cases o with
  | none => rfl
  | some p =>
    obtain ⟨same, short⟩ := h p rfl
    exact (if_neg (not_not.mpr same)).trans (if_neg (Nat.not_lt.mpr short))

/-- R129: the context of a slot that enters PARAMETERIZING with its download record. -/
def Context.downloads (c : Context) (d : Download) : Context :=
  { c with state := .parameterizing, reason := none, progress := some 0, download := some d }

theorem enterParameterizing_faults {n : SetIx} {detail : Nat}
    (refused : precheck (downloadFor n (s.ctx i) s) ((s.ctx i).identity.bind Identity.param) = some detail) :
    enterParameterizing i n s = definitiveFault i .paramRefused detail
      (s.setSlot i { s.slot i with ctx := (s.ctx i).downloads (downloadFor n (s.ctx i) s) }) := by
  unfold enterParameterizing
  dsimp only
  rw [refused]
  rfl

theorem enterParameterizing_begins {n : SetIx}
    (passes : precheck (downloadFor n (s.ctx i) s) ((s.ctx i).identity.bind Identity.param) = none) :
    enterParameterizing i n s = s.setSlot i { s.slot i with
      ctx := (s.ctx i).downloads { downloadFor n (s.ctx i) s with phase := .begin }
      link := (s.link i).asks (.paramBegin (downloadFor n (s.ctx i) s).length (downloadFor n (s.ctx i) s).format
        (downloadFor n (s.ctx i) s).sum16 (downloadFor n (s.ctx i) s).packetSize) } := by
  unfold enterParameterizing
  dsimp only
  rw [passes]
  dsimp only
  rw [send_request_eq, setPhase]
  simp only [modCtx_eq, setSlot_setSlot, slot_setSlot_same, ctx_setSlot_same, link_setSlot_same]
  rfl

/-! ### Entry to READY (R14) -/

/-- The state in which a context has entered READY. -/
def State.readied (s : State) (i : SlotIx) : State :=
  s.setSlot i { s.slot i with ctx := { s.ctx i with state := .ready, reason := none } }

theorem enterReady_eq (i : SlotIx) (s : State) : enterReady i s = tryAdmit i (s.readied i) := rfl

theorem readied_ctx (i : SlotIx) (s : State) : (s.readied i).ctx i = { s.ctx i with state := .ready, reason := none } :=
  ctx_setSlot_same s i _

theorem readied_map (i j : SlotIx) (s : State) : (s.readied i).map j = s.map j :=
  modCtx_map i j (fun c => { c with state := .ready, reason := none }) s

theorem readied_admission (i : SlotIx) (s : State) : (s.readied i).admission i = s.admission i :=
  admission_congr i rfl (readied_map i · s) (by rw [readied_ctx]) (by rw [readied_ctx]) (by rw [readied_ctx])

theorem readied_due (hold : (s.ctx i).hold = false) (own : s.ownRetiring i = false) :
    ((s.readied i).ctx i).state = .ready ∧ ((s.readied i).ctx i).hold = false ∧ (s.readied i).ownRetiring i = false := by
  rw [State.ownRetiring, readied_map, readied_ctx]
  exact ⟨rfl, hold, own⟩

theorem enterReady_waits (h : (s.ctx i).hold = true ∨ s.ownRetiring i = true) : enterReady i s = s.readied i := by
  rw [enterReady_eq]
  refine tryAdmit_of_not fun due => ?_
  rw [readied_ctx, State.ownRetiring, readied_map] at due
  obtain ⟨-, hold, own⟩ := due
  rcases h with e | e
  · cases e.symm.trans hold
  · cases e.symm.trans own

theorem enterReady_passes (hold : (s.ctx i).hold = false) (own : s.ownRetiring i = false) (passes : s.admission i = none) :
    enterReady i s = s.setSlot i
      { s.slot i with ctx := { s.ctx i with state := .starting, reason := none }, link := (s.link i).asks .start } := by
  rw [enterReady_eq, tryAdmit_passes (readied_due hold own) ((readied_admission i s).trans passes), readied_ctx]
  simp only [State.readied, slot_setSlot_same, link_setSlot_same, setSlot_setSlot]
  rfl

theorem enterReady_refused (hold : (s.ctx i).hold = false) (own : s.ownRetiring i = false) {r : Refused} (refused : s.admission i = some r) :
    enterReady i s = post (some i) (.admitRefused r)
      (s.setSlot i { s.slot i with ctx := { s.ctx i with state := .ready, reason := some r.reason } }) := by
  have new : ((s.readied i).ctx i).reason ≠ some r.reason := by
    rw [readied_ctx]
    exact nofun
  rw [enterReady_eq, tryAdmit_refused (readied_due hold own) ((readied_admission i s).trans refused), refuseAdmission_eq, if_neg new,
    readied_ctx, ← post_setSlot]
  simp only [State.readied, slot_setSlot_same, setSlot_setSlot]

/-- Whatever the admission check of READY answers, it concerns the slot alone. -/
theorem enterReady_becomes (i : SlotIx) (s : State) : ∃ x, Becomes i x s (enterReady i s)
    ∧ (enterReady i s).power = s.power ∧ (enterReady i s).store = s.store := by
  cases hold : (s.ctx i).hold with
  | true =>
    rw [enterReady_waits (.inl hold)]
    exact ⟨_, .setSlot i _ s rfl, rfl, rfl⟩
  | false =>
    cases own : s.ownRetiring i with
    | true =>
      rw [enterReady_waits (.inr own)]
      exact ⟨_, .setSlot i _ s rfl, rfl, rfl⟩
    | false =>
      cases answer : s.admission i with
      | none =>
        rw [enterReady_passes hold own answer]
        exact ⟨_, .setSlot i _ s rfl, rfl, rfl⟩
      | some r =>
        rw [enterReady_refused hold own answer]
        exact ⟨_, post_setSlot_becomes _ _ rfl, rfl, rfl⟩

/-- Two windows that change together are RETIRING together. -/
theorem MapOk.ownRetiring (h : MapOk s) : s.ownRetiring i = (s.map i).input.isRetiring := by
  have paired := h.paired i
  unfold SlotMap.paired at paired
  rw [State.ownRetiring]
  cases out : (s.map i).output <;> cases inp : (s.map i).input <;> simp_all [Window.isRetiring]

/-! ### The run phase (R39, R12) -/

theorem runPhaseEnded_set (state : (s.ctx i).state = .runInrush) {n : SetIx} (set : (s.ctx i).layout.bind Layout.set = some n) :
    runPhaseEnded i s = enterParameterizing i n s := by
  rw [runPhaseEnded, if_pos state, set]

theorem runPhaseEnded_none (state : (s.ctx i).state = .runInrush) (set : (s.ctx i).layout.bind Layout.set = none) :
    runPhaseEnded i s = enterReady i s := by
  rw [runPhaseEnded, if_pos state, set]

theorem runPhaseEnded_elsewhere (state : (s.ctx i).state ≠ .runInrush) : runPhaseEnded i s = s := if_neg state

theorem Out.runPhaseEnded (h : Out i s) : Out i (Machine.runPhaseEnded i s) := by
  by_cases state : (s.ctx i).state = .runInrush
  · cases set : (s.ctx i).layout.bind Layout.set with
    | none =>
      rw [runPhaseEnded_none state set]
      obtain ⟨x, -, power, -⟩ := enterReady_becomes i s
      exact h.congr power
    | some n =>
      rw [runPhaseEnded_set state set]
      cases answer : precheck (downloadFor n (s.ctx i) s) ((s.ctx i).identity.bind Identity.param) with
      | none =>
        rw [enterParameterizing_begins answer]
        exact h.congr rfl
      | some detail =>
        rw [enterParameterizing_faults answer]
        exact Out.withReleases (finish := enterFaulted i _) (h.congr rfl) fun _ => rfl
  · rw [runPhaseEnded_elsewhere state]
    exact h

/-- R39: the end of the run phase up to its report, and the report. -/
theorem runPhaseExpired_cases (power : PowerOk s) (runs : (s.slotPower i).runPhaseTimer ≠ none) :
    ∃ u : State, Before i s u ∧ u.slot i = { s.slot i with power := { s.slotPower i with runPhaseTimer := none } }
      ∧ (∀ e ∈ u.power.queue, e.slot ≠ i) ∧ Beside False (runPhaseEnded i u) (runPhaseExpired i s)
      ∧ Out i (runPhaseExpired i s) ∧ ∀ j, u.map j = s.map j := by
  have state := power.runPhase i (Option.isSome_iff_ne_none.mpr runs)
  have unqueued := power.noEntry (i := i) (by rw [Context.entry, state])
  have freed := freeAllowance_becomes (fun p => { p with runPhaseTimer := none }) i s
  obtain ⟨u, passed, after⟩ := besidePass_cases true (runPhaseEnded i)
    (freeAllowance i (modPower i (fun p => { p with runPhaseTimer := none }) s))
  have acts : runPhaseExpired i s = besidePass true (runPhaseEnded i)
      (freeAllowance i (modPower i (fun p => { p with runPhaseTimer := none }) s)) :=
    if_neg fun stopped => runs (Option.isNone_iff_eq_none.mp stopped)
  have out : Out i (runPhaseExpired i s) := by
    rw [acts]
    exact Out.besidePass (freeAllowance_out (s := modPower i _ s) unqueued) fun _ => Out.runPhaseEnded
  rw [← acts] at after
  have still : ∀ e ∈ (freeAllowance i (modPower i (fun p => { p with runPhaseTimer := none }) s)).power.queue, e.slot ≠ i :=
    fun e he => unqueued e (freed.queue e he)
  refine ⟨u, ((power.readyOutOfQueue.before i).becomes freed rfl).pass passed, (passed.slot_noEntry still).trans freed.slot,
    passed.noEntry still, after, out, fun j => (passed.map j).trans ?_⟩
  exact modPower_map i j (fun p => { p with runPhaseTimer := none }) s

end

/-- What holds of a slot that has entered FAULTED from PARAMETERIZING without a message. -/
theorem runPhaseExpired_refused {i : SlotIx} {s u t : State} {n : SetIx} {detail : Nat} (power : PowerOk s) (map : MapOk s)
    (state : (s.ctx i).state = .runInrush) (before : Before i s u)
    (slot : u.slot i = { s.slot i with power := { s.slotPower i with runPhaseTimer := none } })
    (refused : precheck (downloadFor n (u.ctx i) u) ((u.ctx i).identity.bind Identity.param) = some detail)
    (after : Beside False (enterParameterizing i n u) t) :
    GivesUp i ({ s.ctx i with state := .parameterizing, reason := none, progress := some 0 }.faulted
        { kind := .paramRefused, stateAt := .parameterizing, detail := detail, attempts := (s.ctx i).attempts }) s t
      ∧ Posted (some i) (.milestone .faulted none none (some (.paramRefused, detail))) s t := by
  rw [enterParameterizing_faults refused] at after
  have ctx : u.ctx i = s.ctx i := (congrArg Slot.ctx slot).trans rfl
  have entered := Becomes.setSlot i { u.slot i with ctx := (u.ctx i).downloads (downloadFor n (u.ctx i) u) } u rfl
  have on : (s.slotPower i).switchOn = true := power.switches i true (by rw [state]; rfl)
  generalize hv : u.setSlot i { u.slot i with ctx := (u.ctx i).downloads (downloadFor n (u.ctx i) u) } = v at after entered
  have inside := entered.slot
  rw [ctx, slot] at inside
  have windows : v.map i = s.map i := (congrArg Slot.map inside).trans rfl
  have ctx' : v.ctx i = (s.ctx i).downloads (downloadFor n (s.ctx i) u) := congrArg Slot.ctx inside
  have switch : (v.slotPower i).switchOn = true := (congrArg (fun x : Slot => x.power.switchOn) inside).trans on
  have gone := (withReleases_left_faulted (before.becomes entered (by rw [← hv]; rfl)) (by rw [ctx']; rfl) (by rw [windows])
    (fun off => absurd (switch.symm.trans off) (by decide)) (by rw [windows]; exact map.paired i)
    (fun c => by rw [inside]; rfl) _ after).1
  rw [ctx'] at gone
  exact gone

/-- Settles O42. -/
theorem runPhaseEndsTheInrush : Obligations.RunPhaseEndsTheInrush := by
  unfold Obligations.RunPhaseEndsTheInrush
  intro s i x p
  refine ⟨fun stopped => congrArg Host.Outcome.next (if_pos (Option.isNone_iff_eq_none.mpr stopped)),
    fun runs power map c l (identity : (s.ctx i).identity = some c) (layout : (s.ctx i).layout = some l) => ?_⟩
  have state := power.runPhase i (Option.isSome_iff_ne_none.mpr runs)
  obtain ⟨u, before, slot, unqueued, after, out, maps⟩ := runPhaseExpired_cases power runs
  have ctx : u.ctx i = s.ctx i := (congrArg Slot.ctx slot).trans rfl
  have link : u.link i = s.link i := (congrArg Slot.link slot).trans rfl
  have ends {y : Slot} {v : State} (report : runPhaseEnded i u = v) (b : Becomes i y u v) :
      (runPhaseExpired i s).slot i = y ∧ Kept i s (runPhaseExpired i s) := by
    rw [report] at after
    exact ⟨(after.slot_noEntry fun e he => unqueued e (b.queue e he)).trans b.slot,
      ((before.apart.trans b.apart).trans (after.apart i)).kept⟩
  refine ⟨_, rfl, out.1, fun n set => ?_, fun set => ?_⟩
  · intro d download y
    have named : (u.ctx i).layout.bind Layout.set = some n := by rw [ctx, layout]; exact set
    have reports := runPhaseEnded_set (by rw [ctx]; exact state) named
    have records : downloadFor n (u.ctx i) u = { download with phase := .precheck } := by
      rw [ctx, downloadFor, identity, before.store]
      rfl
    have declared : (u.ctx i).identity.bind Identity.param = c.param := by rw [ctx, identity]; rfl
    rw [reports] at after
    refine ⟨fun q param other => runPhaseExpired_refused power map state before slot ?_ after,
      fun q param same long => runPhaseExpired_refused power map state before slot ?_ after, fun passes => ?_⟩
    · rw [records, declared, param]
      exact precheck_format other
    · rw [records, declared, param]
      exact precheck_length same long
    · have begun := reports.trans (enterParameterizing_begins (by rw [records, declared]; exact precheck_passes passes))
      obtain ⟨slot', kept⟩ := ends begun (.setSlot i _ u rfl)
      refine ⟨slot'.trans ?_, kept⟩
      rw [records, ctx, link, slot]
      rfl
  · intro y
    have unnamed : (u.ctx i).layout.bind Layout.set = none := by rw [ctx, layout]; exact set
    have reports := runPhaseEnded_none (by rw [ctx]; exact state) unnamed
    have hold : (u.ctx i).hold = (s.ctx i).hold := by rw [ctx]
    have own : u.ownRetiring i = (s.map i).input.isRetiring := by
      rw [← map.ownRetiring, State.ownRetiring, State.ownRetiring, State.map, slot]
      rfl
    have admission : u.admission i = s.admission i :=
      admission_congr i before.apart.trunk maps (by rw [ctx]) (by rw [ctx]) (by rw [ctx])
    refine ⟨fun waits => ?_, fun free clear => ⟨fun passes => ?_, fun r refused => ?_⟩⟩
    · have waiting := reports.trans (enterReady_waits (waits.imp (fun e => hold.trans e) fun e => own.trans e))
      obtain ⟨slot', kept⟩ := ends waiting (.setSlot i _ u rfl)
      refine ⟨slot'.trans ?_, kept⟩
      rw [ctx, slot]
      rfl
    · have starts := reports.trans (enterReady_passes (hold.trans free) (own.trans clear) (admission.trans passes))
      refine (ends starts (.setSlot i _ u rfl)).1.trans ?_
      rw [ctx, link, slot]
      rfl
    · have stays := reports.trans (enterReady_refused (hold.trans free) (own.trans clear) (admission.trans refused))
      have b := post_setSlot_becomes (i := i) (s := u) (some i) (.admitRefused r)
        (x := { u.slot i with ctx := { u.ctx i with state := .ready, reason := some r.reason } }) rfl
      refine ⟨(ends stays b).1.trans ?_, ?_⟩
      · rw [ctx, slot]
        rfl
      · rw [stays] at after
        have entered := Becomes.setSlot i { u.slot i with ctx := { u.ctx i with state := .ready, reason := some r.reason } } u rfl
        exact (posted_post (some i) (.admitRefused r) _).extend (before.apart.evolves.trans entered.evolves)
          (by rw [entered.trunk, before.apart.trunk]) after.evolves

end Sys2Proof.Machine
end

section
/-! SUPPORT. The slot link: a state whose one engine is replaced, what is sent in turn (R52), and training (R57 to R60). -/

namespace Sys2Proof.Machine

/-! ### One engine replaced -/

/-- The state with another engine at slot `i`. -/
def State.relink (s : State) (i : SlotIx) (l : LinkEngine) : State := s.setSlot i { s.slot i with link := l }

section
variable (s : State) (i : SlotIx) (l : LinkEngine)

@[simp] theorem relink_slot : (s.relink i l).slot i = { s.slot i with link := l } := slot_setSlot_same s i _
@[simp] theorem relink_link : (s.relink i l).link i = l := link_setSlot_same s i _
@[simp] theorem relink_ctx : (s.relink i l).ctx i = s.ctx i := ctx_setSlot_same s i _
@[simp] theorem relink_slotPower : (s.relink i l).slotPower i = s.slotPower i := slotPower_setSlot_same s i _
@[simp] theorem relink_map : (s.relink i l).map i = s.map i := map_setSlot_same s i _
@[simp] theorem relink_expected : (s.relink i l).expected i = s.expected i := expected_setSlot_same s i _

theorem modLink_relink (f : LinkEngine → LinkEngine) : modLink i f (s.relink i l) = s.relink i (f l) := modLink_setSlot s i _ f
theorem modLink_eq_relink (f : LinkEngine → LinkEngine) : modLink i f s = s.relink i (f (s.link i)) := rfl
@[simp] theorem relink_relink (l' : LinkEngine) : (s.relink i l).relink i l' = s.relink i l' := by
  simp only [State.relink, setSlot_setSlot, slot_setSlot_same]

theorem relink_becomes : Becomes i { s.slot i with link := l } s (s.relink i l) := .setSlot i _ s rfl

theorem relink_self (h : s.link i = l) : s.relink i l = s := by
  have same : { s.slot i with link := l } = s.slot i := by
    subst h
    rfl
  rw [State.relink, same]
  simp only [State.setSlot, State.slot, Fin.getElem_fin, Vector.set_getElem_self]

end

/-! ### Sending (R52) -/

section
variable {i : SlotIx} {s : State}

theorem send_waits (x : NextSend) (busy : (s.link i).turnaround.isSome = true ∨ (s.link i).sending.isSome = true ∨ (s.link i).receiving = true) :
    send i x s = s.relink i { s.link i with next := some x } := if_pos ((occupied_iff _).mpr busy)

theorem send_quiet (x : NextSend) (turnaround : (s.link i).turnaround = none) (sending : (s.link i).sending = none)
    (receiving : (s.link i).receiving = false) : send i x s = sendNow i x s :=
  if_neg (by simp [LinkEngine.occupied, turnaround, sending, receiving])

variable {l : LinkEngine}

theorem sendNow_train {kind : TrainKind} {target : RateCode} (h : l.training = some (kind, target)) :
    sendNow i .train (s.relink i l) = s.relink i { l with
      seq := (l.seq + 1) % 256, sending := some (.train kind target ((l.seq + 1) % 256))
      attemptTimer := some (l.attemptTimer.getD 5000000) } := by
  rw [sendNow, modLink_relink]
  simp only [h, Config.attemptInterval]

theorem sendNow_request (r : ControlReq) : sendNow i (.request r) (s.relink i l) = s.relink i { l with
    requestNumber := (l.requestNumber + 1) % 256, pipe := .waiting r ((l.requestNumber + 1) % 256) false
    sending := some (.request ((l.requestNumber + 1) % 256) r) } := modLink_relink s i l _

theorem sendNow_again {r : ControlReq} {n : Nat} {again : Bool} (h : l.pipe = .waiting r n again) :
    sendNow i .again (s.relink i l) = s.relink i { l with sending := some (.request n r) } := by
  rw [sendNow, modLink_relink]
  simp only [h]

theorem sendNow_packet {b : Bulk} {n : SetIx} (h : l.bulk = some b) (pinned : (s.ctx i).pinned = some n) :
    sendNow i .packet (s.relink i l) = s.relink i { l with
      bulk := some { b with sent := true }
      sending := some (.packet b.seqBit ((List.range b.length).map fun k => s.store.byteOf (s.store.set n) (b.offset + k))) } := by
  have bytes : packetBytes i b (s.relink i l) = (List.range b.length).map fun k => s.store.byteOf (s.store.set n) (b.offset + k) := by
    rw [packetBytes, relink_ctx, pinned]
    rfl
  rw [sendNow, modLink_relink]
  simp only [h, bytes]

theorem sendNow_cyclicOut (flag : OutFlag) (bytes : Bytes) : sendNow i (.cyclicOut flag bytes) (s.relink i l)
    = s.relink i { l with sending := some (.cyclicOut flag bytes), lastOutputs := some bytes } := modLink_relink s i l _

/-! ### The end of a turnaround (R52) -/

theorem turnaroundEnds_stopped (h : (s.link i).turnaround = none) : turnaroundEnds i s = s := if_pos (Option.isNone_iff_eq_none.mpr h)

theorem turnaroundEnds_next {x : NextSend} (h : (s.link i).turnaround ≠ none) (next : (s.link i).next = some x) :
    turnaroundEnds i s = if (s.link i).sending.isSome || (s.link i).receiving then s.relink i { s.link i with turnaround := none }
      else sendNow i x (s.relink i { s.link i with turnaround := none, next := none }) := by
  rw [turnaroundEnds, if_neg fun stopped => h (Option.isNone_iff_eq_none.mp stopped)]
  dsimp only
  rw [next]
  dsimp only
  have occupied : LinkEngine.occupied { s.link i with turnaround := none } = ((s.link i).sending.isSome || (s.link i).receiving) := rfl
  simp only [modLink_eq_relink, relink_link, relink_relink, occupied]
  simp only [next]

theorem turnaroundEnds_waits (h : (s.link i).turnaround ≠ none)
    (busy : (s.link i).next = none ∨ (s.link i).sending ≠ none ∨ (s.link i).receiving = true) :
    turnaroundEnds i s = s.relink i { s.link i with turnaround := none } := by
  cases next : (s.link i).next with
  | none =>
    rw [turnaroundEnds, if_neg fun stopped => h (Option.isNone_iff_eq_none.mp stopped), next]
    rfl
  | some x =>
    rw [turnaroundEnds_next h next]
    rcases busy with none | sending | receiving
    · cases none.symm.trans next
    · exact if_pos (by simp [Option.isSome_iff_ne_none.mpr sending])
    · exact if_pos (by simp [receiving])

theorem turnaroundEnds_sends {x : NextSend} (h : (s.link i).turnaround ≠ none) (next : (s.link i).next = some x)
    (sending : (s.link i).sending = none) (receiving : (s.link i).receiving = false) :
    turnaroundEnds i s = sendNow i x (s.relink i { s.link i with turnaround := none, next := none }) := by
  rw [turnaroundEnds_next h next]
  exact if_neg (by simp [sending, receiving])

/-! ### The end of a message (R52, R57, R62, R65) -/

theorem LinkEngine.messageEnds_idle {l : LinkEngine} (h : l.sending = none) : l.messageEnds = l := by
  rw [LinkEngine.messageEnds, h]

theorem LinkEngine.messageEnds_sent {l : LinkEngine} {m : LinkMessage} (h : l.sending = some m) :
    l.messageEnds = (LinkEngine.afterSent m { l with sending := none }).turn := by
  rw [LinkEngine.messageEnds, h]

theorem LinkEngine.afterSent_train {l : LinkEngine} (kind : TrainKind) (target : RateCode) (seq : Nat) :
    LinkEngine.afterSent (.train kind target seq) l
      = if l.link = .training ∧ l.next.isNone then { l with echoTimer := some 200000 } else l := rfl

theorem LinkEngine.afterSent_request {l : LinkEngine} {n : Nat} {q : ControlReq} {again : Bool} (r : ControlReq)
    (h : l.pipe = .waiting q n again) : LinkEngine.afterSent (.request n r) l = { l with answerTimer := some q.timeout } := by
  rw [LinkEngine.afterSent, h]
  exact if_pos rfl

theorem LinkEngine.afterSent_stale {l : LinkEngine} {n : Nat} (r : ControlReq) (h : ∀ q again, l.pipe ≠ .waiting q n again) :
    LinkEngine.afterSent (.request n r) l = l := by
  cases pipe : l.pipe with
  | idle => rw [LinkEngine.afterSent, pipe]
  | waiting q number again =>
    rw [LinkEngine.afterSent, pipe]
    exact if_neg fun same => h q again (by rw [pipe, same])

theorem LinkEngine.afterSent_packet {l : LinkEngine} {b : Bulk} (bit : Bool) (bytes : Bytes) (h : l.bulk = some b)
    (backoff : b.backoffTimer = none) (next : l.next = none) :
    LinkEngine.afterSent (.packet bit bytes) l = { l with bulk := some { b with answerTimer := some 20000000 } } := by
  rw [LinkEngine.afterSent, h]
  exact if_pos (by rw [backoff, next]; rfl)

theorem LinkEngine.afterSent_abandoned {l : LinkEngine} (bit : Bool) (bytes : Bytes)
    (h : l.next ≠ none ∨ ∀ b, l.bulk = some b → b.backoffTimer ≠ none) : LinkEngine.afterSent (.packet bit bytes) l = l := by
  cases bulk : l.bulk with
  | none => rw [LinkEngine.afterSent, bulk]
  | some b =>
    rw [LinkEngine.afterSent, bulk]
    refine if_neg fun both => ?_
    obtain ⟨backoff, next⟩ := (Bool.and_eq_true _ _).mp both
    rcases h with waits | busy
    · exact waits (Option.isNone_iff_eq_none.mp next)
    · exact busy b bulk (Option.isNone_iff_eq_none.mp backoff)

theorem ControlReq.timeout_eq (q : ControlReq) : q.timeout = if q = .paramEnd then 2000000000 else 20000000 := by
  cases q <;> rfl

end

/-- Settles O44. -/
theorem linkSendsInTurn : Obligations.LinkSendsInTurn := by
  unfold Obligations.LinkSendsInTurn
  intro s i l becomes sends ends
  have turns {t : State} (h : turnaroundEnds i s = t) : exec (.turnaroundExpiry i) s = .next t := congrArg Host.Outcome.next h
  have message {m : LinkMessage} {l' : LinkEngine} (sent : l.sending = some m)
      (h : LinkEngine.afterSent m { l with sending := none } = { l' with sending := none }) : ends l' := by
    refine congrArg Host.Outcome.next ((modLink_eq_relink s i LinkEngine.messageEnds).trans ?_)
    rw [LinkEngine.messageEnds_sent (l := s.link i) sent, h]
    rfl
  refine ⟨fun stopped => turns (turnaroundEnds_stopped stopped), fun runs busy => turns (turnaroundEnds_waits runs busy),
    fun runs sending receiving => ⟨fun kind target next training => turns ?_, fun r next => turns ?_,
      fun r n again next pipe => turns ?_, fun b n next bulk pinned => turns ?_, fun flag bytes next => turns ?_⟩,
    fun idle => congrArg Host.Outcome.next ?_, fun kind target seq sent => ⟨fun training next => message sent ?_, fun off => message sent ?_⟩,
    fun n r sent => ⟨fun q again pipe => message sent ?_, fun stale => message sent (LinkEngine.afterSent_stale r stale)⟩,
    fun bit bytes sent => ⟨fun b bulk backoff next => message sent (LinkEngine.afterSent_packet bit bytes bulk backoff next),
      fun abandoned => message sent (LinkEngine.afterSent_abandoned bit bytes abandoned)⟩,
    fun flag bytes sent => message sent rfl⟩
  · rw [turnaroundEnds_sends runs next sending receiving,
      sendNow_train (l := { s.link i with turnaround := none, next := none }) (kind := kind) (target := target) training]
    rfl
  · rw [turnaroundEnds_sends runs next sending receiving, sendNow_request]
    rfl
  · rw [turnaroundEnds_sends runs next sending receiving,
      sendNow_again (l := { s.link i with turnaround := none, next := none }) (r := r) (n := n) (again := again) pipe]
    rfl
  · rw [turnaroundEnds_sends runs next sending receiving,
      sendNow_packet (l := { s.link i with turnaround := none, next := none }) (b := b) (n := n) bulk pinned]
    rfl
  · rw [turnaroundEnds_sends runs next sending receiving, sendNow_cyclicOut]
    rfl
  · rw [modLink_eq_relink, LinkEngine.messageEnds_idle idle]
    exact relink_self s i _ rfl
  · rw [LinkEngine.afterSent_train]
    exact if_pos ⟨training, Option.isNone_iff_eq_none.mpr next⟩
  · rw [LinkEngine.afterSent_train]
    exact if_neg fun both => off.elim (fun link => link both.1) fun next => next (Option.isNone_iff_eq_none.mp both.2)
  · rw [← ControlReq.timeout_eq]
    exact LinkEngine.afterSent_request (l := { s.link i with sending := none }) r (again := again) pipe

end Sys2Proof.Machine
end

section
/-! SUPPORT. A message of the card received (R52, R53), and what an event at an engine alone leaves of a slot's ends (R5, R20, R21). -/

namespace Sys2Proof.Machine

/-! ### Ends of a bring-up after a change of the engine -/

section
variable {i : SlotIx} {s t u : State} {l : LinkEngine}

/-- Between `s` and `u` only the engine of slot `i` has changed, and not the state of its link-alive line. -/
structure Relinked (i : SlotIx) (s u : State) : Prop where
  slot : u.slot i = { s.slot i with link := u.link i }
  gone : (u.link i).gone = (s.link i).gone
  becomes : Becomes i (u.slot i) s u
  store : u.store = s.store
  events : u.events = s.events

theorem relink_relinked (gone : l.gone = (s.link i).gone) : Relinked i s (s.relink i l) := by
  refine ⟨?_, by rw [relink_link, gone], (relink_becomes s i l).eq (relink_slot s i l).symm, rfl, rfl⟩
  rw [relink_slot, relink_link]

namespace Relinked

variable (h : Relinked i s u)
include h

theorem ctx : u.ctx i = s.ctx i := (congrArg Slot.ctx h.slot).trans rfl
theorem map : u.map i = s.map i := (congrArg Slot.map h.slot).trans rfl
theorem slotPower : u.slotPower i = s.slotPower i := (congrArg Slot.power h.slot).trans rfl
theorem expected : u.expected i = s.expected i := (congrArg Slot.expected h.slot).trans rfl

theorem off (power : PowerOk s) : (u.slotPower i).switchOn = false → (u.slotPower i).off = u.slotPower i ∧ (u.ctx i).heldDraw = 0 := by
  rw [h.slotPower, h.ctx]
  exact power.off i

theorem paired (map : MapOk s) : (u.map i).paired := h.map ▸ map.paired i

theorem kept (k : Kept i u t) : Kept i s t := by
  refine ⟨h.becomes.evolves.trans k.evolves, k.trunk.trans h.becomes.trunk, k.retained.trans h.becomes.retained, fun j hj => ?_⟩
  have same : u.ctx j = s.ctx j := congrArg Slot.ctx (h.becomes.others j hj)
  rcases k.others j hj with e | ⟨e, he, hs⟩ | ready
  · exact .inl (e.trans (h.becomes.others j hj))
  · exact .inr (.inl ⟨e, h.becomes.queue e he, hs⟩)
  · exact .inr (.inr (same ▸ ready))

theorem unpinned {pinned : Option SetIx} (p : Unpinned pinned u t) : Unpinned pinned s t := by
  intro n
  rw [← h.store]
  exact p n

theorem posted {o : Option SlotIx} {b : EventBody} (p : Posted o b u t) : Posted o b s t := by
  unfold Posted at p ⊢
  rw [h.events, h.becomes.trunk] at p
  exact p

theorem givesUp {c : Context} (g : GivesUp i c u t) : GivesUp i c s t := by
  refine ⟨?_, g.entry, h.unpinned (h.ctx ▸ g.pins), h.kept g.kept⟩
  rw [g.slot, h.slotPower, h.gone, h.map, h.slot]

theorem faults {kind : FaultKind} {detail : Nat} (f : Faults i kind detail u t) : Faults i kind detail s t := by
  obtain ⟨given, posted⟩ := f
  rw [h.ctx] at given
  exact ⟨h.givesUp given, h.posted posted⟩

theorem withdraws {reason : Reason} (w : Withdraws i reason u t) : Withdraws i reason s t := by
  obtain ⟨given, posted⟩ := w
  rw [h.ctx] at given
  exact ⟨h.givesUp given, h.posted posted⟩

theorem alive : (u.link i).alive = (s.link i).alive := by
  have same : (u.link i).gone.alive = (s.link i).gone.alive := by rw [h.gone]
  exact same

theorem retrains {n : Nat} (r : Retrains i n u t) : Retrains i n s t := by
  obtain ⟨ctx, power, map, link, train, entry, pins, kept⟩ := r
  rw [h.ctx] at ctx pins
  rw [h.slotPower] at power
  rw [h.map] at map
  rw [h.alive] at link
  exact ⟨ctx, power, map, link, train, entry, h.unpinned pins, h.kept kept⟩

theorem transientlyFaults {kind : FaultKind} (f : TransientlyFaults i kind u t) : TransientlyFaults i kind s t := by
  unfold TransientlyFaults at f ⊢
  rw [h.ctx] at f
  split at f
  · next few => rw [if_pos few]; exact h.retrains f
  · next many => rw [if_neg many]; exact ⟨h.givesUp f.1, h.posted f.2⟩

/-- R21: a definitive fault of a slot whose engine alone the event has changed. -/
theorem definitiveFault (power : PowerOk s) (map : MapOk s) (kind : FaultKind) (detail : Nat) :
    Faults i kind detail s (definitiveFault i kind detail u) :=
  h.faults (definitiveFault_faults i kind detail u (h.off power) (h.paired map))

/-- R20: a transient fault. -/
theorem transientFault (power : PowerOk s) (map : MapOk s) (kind : FaultKind) :
    TransientlyFaults i kind s (transientFault i kind u) :=
  h.transientlyFaults (transientFault_faults i kind u (h.off power) (h.paired map))

/-- R29, R30: a withdrawal. -/
theorem withdrawn (power : PowerOk s) (map : MapOk s) (reason : Reason) :
    Withdraws i reason s (withReleases i (enterWithdrawn i reason) u) :=
  h.withdraws (withReleases_withdraws i reason u (h.off power) (h.paired map))

end Relinked

/-! ### Reception (R52, R53) -/

/-- The rows that are messages of the card. -/
def linkRows (i : SlotIx) (m : Bytes) : List Instr :=
  [.linkMessageDiscard i m, .trainEcho i m, .controlAnswer i m, .bulkAck i m, .bulkWait i m, .bulkRefuse i m, .corruptBulkAnswer i m,
    .cyclicIn i m]

/-- R53: whichever row a message comes under, its bytes tell what it is. -/
theorem exec_linkRow {c : Instr} {m : Bytes} (h : c ∈ linkRows i m) (s : State) : exec c s = .next (receive i m s) := by
  simp only [linkRows, List.mem_cons, List.not_mem_nil, or_false] at h
  rcases h with rfl | rfl | rfl | rfl | rfl | rfl | rfl | rfl
  all_goals rfl

/-- The state in which a message of the card has ended. -/
def State.heard (s : State) (i : SlotIx) : State := s.relink i (s.link i).discards

theorem LinkEngine.discards_receiving {l : LinkEngine} (h : l.receiving = false) : { l with receiving := false }.turn = l.discards := by
  rw [← h]
  rfl

theorem receive_heard (h : (s.link i).receiving = false) (m : Bytes) : receive i m s = deliver i (parseLink m) (s.heard i) := by
  unfold receive
  dsimp only
  rw [h, if_neg Bool.false_ne_true, modLink_eq_relink, LinkEngine.discards_receiving h]
  rfl

theorem receive_interrupted (h : (s.link i).receiving = true) (m : Bytes) :
    receive i m s = s.relink i { (s.link i).discards with receiving := false } := by
  unfold receive
  dsimp only
  rw [h, if_pos rfl]
  rfl

section
variable (i : SlotIx) (s : State)

@[simp] theorem heard_link : (s.heard i).link i = (s.link i).discards := relink_link s i _
@[simp] theorem heard_ctx : (s.heard i).ctx i = s.ctx i := relink_ctx s i _
@[simp] theorem heard_slot : (s.heard i).slot i = { s.slot i with link := (s.link i).discards } := relink_slot s i _
@[simp] theorem heard_relink (l : LinkEngine) : (s.heard i).relink i l = s.relink i l := relink_relink s i _ l

theorem modLink_heard (f : LinkEngine → LinkEngine) : modLink i f (s.heard i) = s.relink i (f (s.link i).discards) :=
  modLink_relink s i _ f

end

/-- R52: after a message of the card what the engine sends waits for the turnaround. -/
theorem send_turning (x : NextSend) (turning : l.turnaround ≠ none) : send i x (s.relink i l) = s.relink i { l with next := some x } := by
  rw [send_waits x (.inl (by rw [relink_link]; exact Option.isSome_iff_ne_none.mpr turning)), relink_link, relink_relink]

theorem relink_modCtx (f : Context → Context) : modCtx i f (s.relink i l) = s.setSlot i { s.slot i with ctx := f (s.ctx i), link := l } :=
  modCtx_setSlot s i _ f

/-- R52: what is sent when the engine is turning, at a slot replaced. -/
theorem send_setSlot_turning (x : NextSend) {y : Slot} (turning : y.link.turnaround ≠ none) :
    send i x (s.setSlot i y) = s.setSlot i { y with link := { y.link with next := some x } } := by
  rw [send_waits x (.inl (by rw [link_setSlot_same]; exact Option.isSome_iff_ne_none.mpr turning)), link_setSlot_same, State.relink,
    slot_setSlot_same, setSlot_setSlot]

end

end Sys2Proof.Machine
end

section
/-! SUPPORT. Training (R57 to R60): echoes and failed attempts. -/

namespace Sys2Proof.Machine

section
variable {i : SlotIx} {s : State} {kind : TrainKind} {target : RateCode}

@[simp] theorem trainPattern_length (seq : Nat) : (trainPattern seq).length = 13 := by simp [trainPattern]

theorem LinkEngine.echoGood_some {l : LinkEngine} (training : l.training = some (kind, target)) (f : LinkFrame) :
    l.echoGood (some f) = (decide (f.kind = 2) && decide (f.body = trainBody kind target l.seq)) := by
  unfold LinkEngine.echoGood
  rw [training]
  rfl

/-- R57: a good echo is one that repeats the body of the TRAIN last sent. -/
theorem LinkEngine.echoGood_iff {l : LinkEngine} (training : l.training = some (kind, target)) (message : Bytes) :
    l.echoGood (parseLink message) = true ↔ ∃ number : Nat, message = linkBytes 2 number (trainBody kind target l.seq) := by
  constructor
  · intro good
    cases parsed : parseLink message with
    | none =>
      rw [parsed] at good
      cases good
    | some f =>
      rw [parsed, LinkEngine.echoGood_some training] at good
      obtain ⟨isEcho, body⟩ := (Bool.and_eq_true _ _).mp good
      refine ⟨f.number, ?_⟩
      rw [linkBytes_of_parseLink parsed, of_decide_eq_true isEcho, of_decide_eq_true body]
  · rintro ⟨number, rfl⟩
    rw [parseLink_linkBytes _ _ _ (by decide) (by simp [trainBody]), LinkEngine.echoGood_some training]
    simp

/-! ### Echoes -/

theorem deliver_training (h : (s.link i).link = .training) (m : Option LinkFrame) : deliver i m s = receiveEcho i m s := by
  rw [deliver, h]

theorem echoFailed_heard : echoFailed i (s.heard i) = s.relink i
    { s.link i with echoes := 0, echoTimer := none, turnaround := some 1000, next := some .train } := by
  rw [echoFailed, modLink_heard, send_turning _ (by exact nofun)]
  rfl

theorem echoCounted_next (few : (s.link i).echoes < 3) : echoCounted i (s.heard i) = s.relink i
    { s.link i with echoes := (s.link i).echoes + 1, echoTimer := none, turnaround := some 1000, next := some .train } := by
  have echoes : min 4 ((s.link i).discards.echoes + 1) = (s.link i).echoes + 1 := Nat.min_eq_right (Nat.le_succ_of_le few)
  unfold echoCounted
  dsimp only
  rw [modLink_heard, relink_link, echoes, if_neg (by simp only; omega), send_turning _ (by exact nofun)]
  rfl

/-- R55, R58: the engine after the fourth good echo. -/
def LinkEngine.reached (l : LinkEngine) : LinkEngine :=
  { l with
    link := .up, training := none, echoes := 4, attemptTimer := none, echoTimer := none, turnaround := some 1000
    next := none, watch := true
    absenceTimer := if l.watch then l.absenceTimer else if l.alive ∨ l.absenceReported then none else some 100000 }

theorem LinkEngine.reach_counted (l : LinkEngine) :
    LinkEngine.reach { l.discards with echoes := 4, echoTimer := none } = l.reached := by
  unfold LinkEngine.reach LinkEngine.watchOn LinkEngine.reached LinkEngine.discards
  cases watch : l.watch with
  | true => simp
  | false => simp [Config.absenceInterval]

theorem attemptPassed_eq (training : (s.link i).training = some (kind, target)) : attemptPassed i s
    = reportLinkUp i (modCtx i (fun c => { c with rateCode := target }) (modLink i LinkEngine.reach s)) := by
  rw [attemptPassed, training]

theorem echoCounted_passes (training : (s.link i).training = some (kind, target)) (many : 3 ≤ (s.link i).echoes) :
    echoCounted i (s.heard i) = reportLinkUp i
      (s.setSlot i { s.slot i with ctx := { s.ctx i with rateCode := target }, link := (s.link i).reached }) := by
  have echoes : min 4 ((s.link i).discards.echoes + 1) = 4 := Nat.min_eq_left (by exact Nat.succ_le_succ many)
  unfold echoCounted
  dsimp only
  rw [modLink_heard, relink_link, echoes, if_pos rfl, attemptPassed_eq (kind := kind) (target := target) (by rw [relink_link]; exact training),
    modLink_relink, LinkEngine.reach_counted, relink_modCtx]

theorem reportLinkUp_linkTraining (state : (s.ctx i).state = .linkTraining) : reportLinkUp i s = beginWalk i s := by
  rw [reportLinkUp, state]

theorem reportLinkUp_rateTraining (state : (s.ctx i).state = .rateTraining) : reportLinkUp i s = holdPointOne i s := by
  rw [reportLinkUp, state]

end

/-- Settles O45. -/
theorem echoesPassTheAttempt : Obligations.EchoesPassTheAttempt := by
  unfold Obligations.EchoesPassTheAttempt
  intro s i kind target message x l link training awaited receiving good again up
  have echoes {t : State} (h : receiveEcho i (parseLink message) (s.heard i) = t) : exec (.trainEcho i message) s = .next t := by
    refine congrArg Host.Outcome.next ((receive_heard receiving message).trans ?_)
    rw [deliver_training (by rw [heard_link]; exact link)]
    exact h
  have waiting : ¬ ((s.heard i).link i).echoTimer.isNone = true := by
    rw [heard_link]
    exact fun stopped => awaited (Option.isNone_iff_eq_none.mp stopped)
  have judged : ((s.heard i).link i).echoGood (parseLink message) = true ↔ good := by
    rw [heard_link]
    exact LinkEngine.echoGood_iff (l := (s.link i).discards) training message
  have counts (isGood : good) : receiveEcho i (parseLink message) (s.heard i) = echoCounted i (s.heard i) := by
    rw [receiveEcho, if_neg waiting, if_pos (judged.mpr isGood)]
  refine ⟨fun isGood few => echoes ((counts isGood).trans (echoCounted_next few)), fun bad => echoes ?_, fun isGood many => ?_⟩
  · rw [receiveEcho, if_neg waiting, if_neg fun e => bad (judged.mp e)]
    exact echoFailed_heard
  · have passes := (counts isGood).trans (echoCounted_passes training many)
    refine ⟨fun state => echoes ?_, fun state hold => echoes ?_, fun state hold => echoes ?_⟩
    · rw [passes, reportLinkUp_linkTraining (by rw [ctx_setSlot_same]; exact state), beginWalk, modCtx_setSlot,
        send_setSlot_turning _ (by exact nofun)]
      rfl
    · rw [passes, reportLinkUp_rateTraining (by rw [ctx_setSlot_same]; exact state), holdPointOne_held (by rw [ctx_setSlot_same]; exact hold)]
      rfl
    · rw [passes, reportLinkUp_rateTraining (by rw [ctx_setSlot_same]; exact state),
        holdPointOne_free (by rw [ctx_setSlot_same]; exact state) (by rw [ctx_setSlot_same]; exact hold), enterRunWait_eq,
        slot_setSlot_same, ctx_setSlot_same, expected_setSlot_same, setSlot_setSlot]
      rfl

/-! ### Failed attempts -/

section
variable {i : SlotIx} {s : State} {kind : TrainKind} {target : RateCode}

theorem lowerCode_eq {lower : RateCode} (h : target.val = lower.val + 1) : lowerCode target = lower := by
  refine Fin.ext ?_
  have := lower.isLt
  simp only [lowerCode, Fin.ofNat, h]
  omega

theorem nextAttempt_eq (training : (s.link i).training = some (kind, target)) (lower : RateCode) (failures : Nat) :
    nextAttempt i lower failures s = s.relink i (LinkEngine.trains kind lower
      { s.link i with
        training := some (kind, lower), failures := failures, echoes := 0, attemptTimer := none, echoTimer := none, next := none }) := by
  rw [nextAttempt, modLink_eq_relink, training, send_train_eq i _ (kind := kind) (target := lower) (by rw [relink_link]; rfl), relink_link,
    relink_slot, State.relink, setSlot_setSlot]
  rfl

theorem attemptFailed_stopped (stopped : (s.link i).attemptTimer = none) : attemptFailed i s = s := by
  unfold attemptFailed
  split
  · rfl
  · exact if_pos (Option.isNone_iff_eq_none.mpr stopped)

theorem attemptFailed_runs (training : (s.link i).training = some (kind, target)) (runs : (s.link i).attemptTimer ≠ none) :
    attemptFailed i s = if (s.link i).failures + 1 < 3 then nextAttempt i target ((s.link i).failures + 1) s
      else if kind = .rate ∧ target ≠ 0 then
        nextAttempt i (lowerCode target) 0 (post (some i) (.rateReduced target (lowerCode target) .trainFail) s)
      else trainingFailed i s := by
  rw [attemptFailed, training]
  exact if_neg fun stopped => runs (Option.isNone_iff_eq_none.mp stopped)

theorem attemptFailed_again (training : (s.link i).training = some (kind, target)) (runs : (s.link i).attemptTimer ≠ none)
    (few : (s.link i).failures < 2) : attemptFailed i s = nextAttempt i target ((s.link i).failures + 1) s :=
  (attemptFailed_runs training runs).trans (if_pos (Nat.succ_lt_succ few))

theorem attemptFailed_third (training : (s.link i).training = some (kind, target)) (runs : (s.link i).attemptTimer ≠ none)
    (many : 2 ≤ (s.link i).failures) : attemptFailed i s = if kind = .rate ∧ target ≠ 0 then
        nextAttempt i (lowerCode target) 0 (post (some i) (.rateReduced target (lowerCode target) .trainFail) s)
      else trainingFailed i s :=
  (attemptFailed_runs training runs).trans (if_neg (Nat.not_lt.mpr (Nat.succ_le_succ many)))

theorem echoWaitExpired_runs (runs : (s.link i).echoTimer ≠ none) : echoWaitExpired i s = echoFailed i s :=
  if_neg fun stopped => runs (Option.isNone_iff_eq_none.mp stopped)

/-- R20, R58: the link FAILED. -/
theorem trainingFailed_faults (power : PowerOk s) (map : MapOk s) (state : (s.ctx i).state ∈ [CtxState.linkTraining, .rateTraining]) :
    TransientlyFaults i .linkTrain s (trainingFailed i s) := by
  have relinked := relink_relinked (i := i) (s := s) (l := { s.link i with
    link := .failed, training := none, failures := 3, attemptTimer := none, echoTimer := none, next := none }) rfl
  have reports : trainingFailed i s = transientFault i .linkTrain _ :=
    if_pos (by rw [modLink_eq_relink, relink_ctx]; simpa using state)
  rw [reports]
  exact relinked.transientFault power map .linkTrain

end

/-- Settles O46. -/
theorem failedAttempts : Obligations.FailedAttempts := by
  unfold Obligations.FailedAttempts
  intro s i x l
  refine ⟨fun stopped => congrArg Host.Outcome.next (if_pos (Option.isNone_iff_eq_none.mpr stopped)), fun runs => congrArg Host.Outcome.next ?_,
    fun stopped => congrArg Host.Outcome.next (attemptFailed_stopped stopped), fun runs kind target training => ?_⟩
  · rw [echoWaitExpired_runs runs, echoFailed, modLink_eq_relink,
      send_turning _ (by exact nofun)]
    rfl
  · intro fresh
    have fails {t : State} (h : attemptFailed i s = t) : exec (.trainingAttemptTimeout i) s = .next t := congrArg Host.Outcome.next h
    refine ⟨fun few => fails ?_, fun many rate lower steps => fails ?_, fun many ends power map state => ?_⟩
    · rw [attemptFailed_again training runs few, nextAttempt_eq training, ← training]
      rfl
    · have above : target ≠ 0 := fun zero => by rw [zero] at steps; cases steps
      rw [attemptFailed_third training runs many, if_pos ⟨rate, above⟩, lowerCode_eq steps,
        nextAttempt_eq (s := post _ _ s) training, rate]
      rfl
    · refine ⟨_, rfl, ?_⟩
      rw [attemptFailed_third training runs many, if_neg ?_]
      · exact trainingFailed_faults power map state
      · rintro ⟨rate, above⟩
        rcases ends with base | zero
        · cases base.symm.trans rate
        · exact above zero

end Sys2Proof.Machine
end

section
/-! SUPPORT. The control pipe (R61 to R63): an accepted answer handed to its context, and what each answer moves. -/

namespace Sys2Proof.Machine

/-! ### An accepted answer -/

section
variable {i : SlotIx} {s : State} {r : ControlReq} {n : Nat} {again : Bool}

/-- The state in which an answer has been accepted: the pipe is free, and the turnaround runs. -/
def State.freed (s : State) (i : SlotIx) : State := s.relink i ((s.link i).accepted none)

theorem freed_relinked (i : SlotIx) (s : State) : Relinked i s (s.freed i) := relink_relinked rfl

@[simp] theorem freed_link (i : SlotIx) (s : State) : (s.freed i).link i = (s.link i).accepted none := relink_link s i _
@[simp] theorem freed_ctx (i : SlotIx) (s : State) : (s.freed i).ctx i = s.ctx i := relink_ctx s i _
@[simp] theorem freed_slot (i : SlotIx) (s : State) : (s.freed i).slot i = { s.slot i with link := (s.link i).accepted none } :=
  relink_slot s i _

theorem modCtx_freed (f : Context → Context) (i : SlotIx) (s : State) : modCtx i f (s.freed i)
    = s.setSlot i { s.slot i with ctx := f (s.ctx i), link := (s.link i).accepted none } := relink_modCtx f

theorem setSlot_freed (x : Slot) (i : SlotIx) (s : State) : (s.freed i).setSlot i x = s.setSlot i x := setSlot_setSlot s i _ _

theorem deliver_up (h : (s.link i).link = .up) (m : Option LinkFrame) : deliver i m s = receiveUp i m s := by
  rw [deliver, h]

theorem receiveUp_control (bulk : (s.link i).bulk = none) (pipe : (s.link i).pipe = .waiting r n again) (m : Option LinkFrame) :
    receiveUp i m s = receiveControl i r n m s := by
  rw [receiveUp, bulk, pipe]

theorem receiveControl_taken {m : Option LinkFrame} {reply : ControlReply} (accepted : acceptedReply r n m = some reply) :
    receiveControl i r n m (s.heard i) = handReply i r reply (s.freed i) := by
  rw [receiveControl, accepted]
  dsimp only
  rw [modLink_heard]
  rfl

/-- R63: an answer to the request outstanding is handed to the context. -/
theorem exec_controlAnswer {body : Bytes} {reply : ControlReply} (link : (s.link i).link = .up) (bulk : (s.link i).bulk = none)
    (pipe : (s.link i).pipe = .waiting r n again) (number : n < 256) (receiving : (s.link i).receiving = false) (short : body.length < 65536)
    (accepted : acceptedReply r n (some { kind := 4, number := n, body := body }) = some reply) :
    exec (.controlAnswer i (linkBytes 4 n body)) s = .next (handReply i r reply (s.freed i)) := by
  refine congrArg Host.Outcome.next ((receive_heard receiving _).trans ?_)
  rw [parseLink_linkBytes 4 n body (by decide) short, Nat.mod_eq_of_lt number, deliver_up (by rw [heard_link]; exact link),
    receiveUp_control (r := r) (n := n) (again := again) (by rw [heard_link]; exact bulk) (by rw [heard_link]; exact pipe),
    receiveControl_taken accepted]

theorem acceptedReply_ok {data : Bytes} (length : data.length = r.answerLength) :
    acceptedReply r n (some { kind := 4, number := n, body := 0 :: data }) = some (.ok data) := by
  have reply : controlReply (0 :: data) = some (.ok data) := by simp [controlReply]
  simp only [acceptedReply, kindControlAnswer, and_self, if_true, reply, length]

theorem acceptedReply_refused (c₁ c₂ : Byte) :
    acceptedReply r n (some { kind := 4, number := n, body := [1, c₁, c₂] }) = some (.refused (c₁.toNat * 256 + c₂.toNat)) := by
  have reply : controlReply [1, c₁, c₂] = some (.refused (c₁.toNat * 256 + c₂.toNat)) := rfl
  simp only [acceptedReply, kindControlAnswer, and_self, if_true, reply]

end

/-! ### What an accepted answer moves -/

section
variable {i : SlotIx} {s : State}

/-- R82: an answered read. -/
theorem reportOk_identifying {offset length : Nat} {w : Walk} (state : (s.ctx i).state = .identifying) (walk : (s.ctx i).walk = some w)
    (data : Bytes) : (∀ w' o k, walkStep w data = .read w' o k → reportOk i (.readDescriptor offset length) data s
        = send i (.request (.readDescriptor o k)) (modCtx i (fun c => { c with walk := some w' }) s))
      ∧ (∀ card, walkStep w data = .complete card → reportOk i (.readDescriptor offset length) data s
        = runMatching i (modCtx i (fun c => { c with walk := none, identity := some card }) s))
      ∧ ∀ f, walkStep w data = .failed f → reportOk i (.readDescriptor offset length) data s = definitiveFault i f.kind f.detail s := by
  have reads : reportOk i (.readDescriptor offset length) data s = readAnswered i data s := by simp only [reportOk, state]
  rw [reads, readAnswered, walk]
  refine ⟨fun w' o k step => ?_, fun card step => ?_, fun f step => ?_⟩
  · dsimp only
    rw [step]
  · dsimp only
    rw [step]
  · dsimp only
    rw [step]

theorem reportOk_setRate (state : (s.ctx i).state = .rateTraining) (code : RateCode) (data : Bytes) :
    reportOk i (.setRate code) data s = rateTraining i code s := by
  simp only [reportOk, state]

theorem reportOk_enableRun (state : (s.ctx i).state = .runInrush) (data : Bytes) :
    reportOk i .enableRun data s = modPower i (fun p => { p with runPhaseTimer := some 20000000 }) s := by
  simp only [reportOk, state, Config.runPhaseInterval]

theorem reportOk_paramBegin (state : (s.ctx i).state = .parameterizing) (a₁ a₂ a₃ a₄ : Nat) (data : Bytes) :
    reportOk i (.paramBegin a₁ a₂ a₃ a₄) data s = startTransfer i s := by
  simp only [reportOk, state]

theorem reportOk_paramEnd (state : (s.ctx i).state = .parameterizing) (data : Bytes) :
    reportOk i .paramEnd data s = downloadComplete i s := by
  simp only [reportOk, state]

theorem reportOk_start (state : (s.ctx i).state = .starting) (data : Bytes) : reportOk i .start data s = armWindows i s := by
  simp only [reportOk, state]

theorem reportOk_stop (state : (s.ctx i).state = .stopping) (data : Bytes) : reportOk i .stop data s = stopEnded i s := by
  simp only [reportOk, state]

/-- R131: a transfer that starts. -/
theorem startTransfer_freed {d : Download} (download : (s.ctx i).download = some d) : startTransfer i (s.freed i) =
    if d.length = 0 then s.setSlot i { s.slot i with
      ctx := { s.ctx i with download := some { d with phase := .finish } }, link := (s.link i).accepted (some (.request .paramEnd)) }
    else s.setSlot i { s.slot i with
      ctx := { s.ctx i with download := some { d with phase := .transfer } }
      link := { (s.link i).accepted (some .packet) with bulk := some (Bulk.start d.length d.packetSize) } } := by
  rw [startTransfer, freed_ctx, download]
  dsimp only
  refine if_congr Iff.rfl ?_ ?_
  · rw [bulkComplete, setPhase, modCtx_freed, send_setSlot_turning _ (by exact nofun), download]
    rfl
  · rw [setPhase, modCtx_freed, modLink_setSlot, send_setSlot_turning _ (by exact nofun), download]
    rfl

/-- R15, R162: the answer to START. -/
theorem armWindows_passes {l : Layout} (layout : (s.ctx i).layout = some l) (passes : s.admission i = none) : armWindows i s
    = s.setSlot i { s.slot i with
      ctx := { s.ctx i with state := .admitPending, reason := none }
      map := { s.map i with
        output := .armed l.outWindow, input := .armed l.inWindow, latest := none
        tables := some { outTable := l.outTable, inTable := l.inTable, fill := l.fill } } } := by
  obtain ⟨out, inp⟩ := Context.window_of_layout layout
  have tables : ((s.ctx i).layout.map fun l => ({ outTable := l.outTable, inTable := l.inTable, fill := l.fill } : TableCopy))
      = some { outTable := l.outTable, inTable := l.inTable, fill := l.fill } := by
    rw [layout]
    rfl
  rw [armWindows, passes]
  dsimp only
  rw [out, inp, tables, modMap_eq, modCtx_setSlot]
  rfl

theorem armWindows_refused {q : Refused} (refused : s.admission i = some q) : armWindows i s
    = post (some i) (.admitRefused q) (s.setSlot i { s.slot i with ctx := { s.ctx i with state := .ready, reason := some q.reason } }) := by
  rw [armWindows, refused]
  dsimp only
  rw [refuseAdmission_eq, if_neg (by rw [modCtx_ctx_same]; exact nofun), modCtx_eq, ctx_setSlot_same, slot_setSlot_same, ← post_setSlot,
    setSlot_setSlot]

theorem LinkEngine.asks_accepted (l : LinkEngine) (r : ControlReq) : (l.accepted none).asks r = l.accepted (some (.request r)) :=
  if_pos (.inl rfl)

theorem freed_admission (i : SlotIx) (s : State) : (s.freed i).admission i = s.admission i :=
  admission_congr i rfl (fun j => modLink_map i j (fun l => l.accepted none) s) (by rw [freed_ctx]) (by rw [freed_ctx]) (by rw [freed_ctx])

/-! ### The end of a download (R13, R133) -/

theorem posted_post_setSlot (o : Option SlotIx) (b : EventBody) (s : State) (i : SlotIx) (x : Slot) :
    Posted o b s (post o b (s.setSlot i x)) := posted_post o b (s.setSlot i x)

/-- R133: the slot as it enters READY from a finished download. -/
def Slot.downloaded (x : Slot) : Slot :=
  { x with ctx := { x.ctx with pinned := none, progress := none, download := none }, link := x.link.accepted none }

theorem downloadComplete_cases (i : SlotIx) (s : State) : ∃ u : State, downloadComplete i (s.freed i) = enterReady i u
    ∧ Becomes i (s.slot i).downloaded s u ∧ Unpinned (s.ctx i).pinned s u ∧ ∀ j, u.map j = s.map j := by
  obtain ⟨gone, unpinned⟩ := unpin_becomes i (s.freed i)
  have cleared := Becomes.modCtx i (fun c => { c with progress := none, download := none }) (unpin i (s.freed i))
  refine ⟨_, rfl, ((freed_relinked i s).becomes.trans (gone.trans cleared)).eq ?_, fun m => ?_, fun j => ?_⟩
  · have ctx : (unpin i (s.freed i)).ctx i = { s.ctx i with pinned := none } := (congrArg Slot.ctx gone.slot).trans (by rw [freed_ctx])
    rw [gone.slot, ctx, freed_slot]
    rfl
  · have pins := unpinned m
    rw [freed_ctx] at pins
    exact pins
  · rw [modCtx_map]
    by_cases same : j = i
    · rw [same, State.map, gone.slot, freed_slot]
      rfl
    · rw [State.map, gone.others j same]
      exact modLink_map i j (fun l => l.accepted none) s

end

/-- Settles O47. -/
theorem controlAnswersMoveTheBringUp : Obligations.ControlAnswersMoveTheBringUp := by
  unfold Obligations.ControlAnswersMoveTheBringUp
  intro s i r n again data x l c link bulk pipe number receiving power map answered goes
  have relinked := freed_relinked i s
  have answers {t : State} (length : data.length = r.answerLength) (small : data.length ≤ 64)
      (h : reportOk i r data (s.freed i) = t) : answered = .next t := by
    rw [← h]
    exact exec_controlAnswer link bulk pipe number receiving (by simp only [List.length_cons]; omega) (acceptedReply_ok length)
  have still {y : CtxState} (state : c.state = y) : ((s.freed i).ctx i).state = y := by rw [freed_ctx]; exact state
  refine ⟨fun offset length w state request small size walk => ?_, fun code state request empty => ?_, fun state request empty => ?_,
    fun a₁ a₂ a₃ a₄ d state request empty download => ?_, fun state request empty => ?_, fun y state request empty layout => ?_⟩
  · subst request
    have reads {t : State} (h : reportOk i (.readDescriptor offset length) data (s.freed i) = t) : answered = .next t :=
      answers size (size ▸ small) h
    obtain ⟨read, complete, failed⟩ := reportOk_identifying (i := i) (s := s.freed i) (offset := offset) (length := length) (still state)
      (w := w) (by rw [freed_ctx]; exact walk) data
    refine ⟨fun w' o k step => reads ((read w' o k step).trans ?_), fun f step => ⟨_, reads (failed f step),
      relinked.definitiveFault power map _ _⟩, fun card e step record disabled => ⟨_, reads (complete card step), ?_⟩,
      fun card step enabled => ⟨_, reads (complete card step), ?_⟩⟩
    · rw [modCtx_freed, send_setSlot_turning _ (by exact nofun)]
      rfl
    · rw [modCtx_freed]
      have gone : Relinked i (s.setSlot i { s.slot i with ctx := { s.ctx i with walk := none, identity := some card } })
          (s.setSlot i { s.slot i with
            ctx := { s.ctx i with walk := none, identity := some card }, link := (s.link i).accepted none }) := by
        have relinks := relink_relinked (i := i)
          (s := s.setSlot i { s.slot i with ctx := { s.ctx i with walk := none, identity := some card } })
          (l := (s.link i).accepted none) (by rw [link_setSlot_same]; rfl)
        rw [State.relink, slot_setSlot_same, setSlot_setSlot] at relinks
        exact relinks
      rw [runMatching_identified (c := card) (by rw [ctx_setSlot_same]), expected_setSlot_same, if_neg]
      · refine gone.withdraws (withReleases_withdraws i .disabled _ ?_ ?_)
        · rw [slotPower_setSlot_same, ctx_setSlot_same]
          exact power.off i
        · rw [map_setSlot_same]
          exact map.paired i
      · intro enabled
        have known : (s.slot i).expected = some e := record
        rw [known] at enabled
        exact absurd (disabled.symm.trans enabled) (by decide)
    · rw [modCtx_freed]
      refine runMatching_matches (by rw [ctx_setSlot_same]) ?_
      rw [expected_setSlot_same]
      cases record : (s.slot i).expected with
      | none => rfl
      | some e => exact enabled e record
  · subst request empty
    refine answers rfl (by decide) ((reportOk_setRate (still state) code []).trans ?_)
    rw [rateTraining, State.freed, modLink_relink, send_turning _ (by exact nofun)]
    rfl
  · subst request empty
    refine answers rfl (by decide) ((reportOk_enableRun (still state) []).trans ?_)
    rw [State.freed, State.relink, modPower_setSlot]
    rfl
  · subst request empty
    have starts := (reportOk_paramBegin (still state) a₁ a₂ a₃ a₄ []).trans (startTransfer_freed download)
    exact ⟨fun zero => answers rfl (by decide) (starts.trans (if_pos zero)),
      fun some => answers rfl (by decide) (starts.trans (if_neg some))⟩
  · subst request empty
    obtain ⟨u, completes, becomes, unpinned, maps⟩ := downloadComplete_cases i s
    have ctx : u.ctx i = { s.ctx i with pinned := none, progress := none, download := none } := congrArg Slot.ctx becomes.slot
    have engine : u.link i = (s.link i).accepted none := (congrArg Slot.link becomes.slot).trans rfl
    have own : u.ownRetiring i = (s.map i).input.isRetiring := by
      rw [← map.ownRetiring, State.ownRetiring, maps, State.ownRetiring]
    have admission : u.admission i = s.admission i :=
      admission_congr i becomes.trunk maps (by rw [ctx]) (by rw [ctx]) (by rw [ctx])
    obtain ⟨y, entered, -, store⟩ := enterReady_becomes i u
    refine ⟨enterReady i u, answers rfl (by decide) ((reportOk_paramEnd (still state) []).trans completes), fun n => ?_,
      (becomes.apart.trans entered.apart).kept, fun waits => ?_, fun free clear passes => ?_, fun q free clear refused => ?_⟩
    · rw [store]
      exact unpinned n
    · rw [enterReady_waits (waits.imp (fun e => by rw [ctx]; exact e) fun e => own.trans e), State.readied, slot_setSlot_same, ctx,
        becomes.slot]
      rfl
    · rw [enterReady_passes (by rw [ctx]; exact free) (own.trans clear) (admission.trans passes), slot_setSlot_same, ctx, engine,
        LinkEngine.asks_accepted, becomes.slot]
      rfl
    · rw [enterReady_refused (by rw [ctx]; exact free) (own.trans clear) (admission.trans refused)]
      refine ⟨?_, (posted_post_setSlot _ _ u i _).extend becomes.evolves (by rw [becomes.trunk]) (.refl _)⟩
      rw [post_slot, slot_setSlot_same, ctx, becomes.slot]
      rfl
  · subst request empty
    have starts := reportOk_start (still state) []
    refine ⟨fun passes => answers rfl (by decide) (starts.trans ?_), fun q refused => answers rfl (by decide) (starts.trans ?_)⟩
    · rw [armWindows_passes (l := y) (by rw [freed_ctx]; exact layout) ((freed_admission i s).trans passes), setSlot_freed, freed_ctx,
        relinked.map, freed_slot]
      rfl
    · rw [armWindows_refused ((freed_admission i s).trans refused), setSlot_freed, freed_ctx, freed_slot]
      rfl

/-! ### A refused request (R12, R15, R59, R86, R131, R133) -/

section
variable {i : SlotIx} {s : State}

theorem reportRefused_descriptor (state : (s.ctx i).state = .identifying) (o k code : Nat) :
    reportRefused i (.readDescriptor o k) code s = definitiveFault i .descriptorRefused code s := by simp only [reportRefused, state]

theorem reportRefused_run (state : (s.ctx i).state = .runInrush) (code : Nat) :
    reportRefused i .enableRun code s = definitiveFault i .runRefused code s := by simp only [reportRefused, state]

theorem reportRefused_begin (state : (s.ctx i).state = .parameterizing) (a₁ a₂ a₃ a₄ code : Nat) :
    reportRefused i (.paramBegin a₁ a₂ a₃ a₄) code s = definitiveFault i .paramRefused (min code 65533) s := by
  simp only [reportRefused, state]

theorem reportRefused_end (state : (s.ctx i).state = .parameterizing) (code : Nat) :
    reportRefused i .paramEnd code s = definitiveFault i .paramNotAccepted code s := by simp only [reportRefused, state]

theorem reportRefused_start (state : (s.ctx i).state = .starting) (code : Nat) :
    reportRefused i .start code s = definitiveFault i .startRefused code s := by simp only [reportRefused, state]

theorem reportRefused_rate (state : (s.ctx i).state = .rateTraining) (target : RateCode) (code : Nat) :
    reportRefused i (.setRate target) code s = setRateRefused i target s := by simp only [reportRefused, state]

theorem reportRefused_stop (state : (s.ctx i).state = .stopping) (code : Nat) :
    reportRefused i .stop code s = stopEnded i s := by simp only [reportRefused, state]

theorem setRateRefused_eq {target lower : RateCode} (steps : target.val = lower.val + 1) : setRateRefused i target s =
    if lower = 0 then holdPointOne i (post (some i) (.rateReduced target lower .refused) s)
    else send i (.request (.setRate lower)) (post (some i) (.rateReduced target lower .refused) s) := by
  rw [setRateRefused, lowerCode_eq steps]

end

/-- Settles O48. -/
theorem refusalsFaultTheSlot : Obligations.RefusalsFaultTheSlot := by
  unfold Obligations.RefusalsFaultTheSlot
  intro s i r n again c₁ c₂ x l st code link bulk pipe number receiving power map refused
  have relinked := freed_relinked i s
  have answers {t : State} (h : reportRefused i r code (s.freed i) = t) : refused = .next t := by
    rw [← h]
    exact exec_controlAnswer link bulk pipe number receiving (by simp) (acceptedReply_refused c₁ c₂)
  have still {y : CtxState} (state : st = y) : ((s.freed i).ctx i).state = y := by rw [freed_ctx]; exact state
  refine ⟨fun kind detail stage => ⟨definitiveFault i kind detail (s.freed i), answers ?_, relinked.definitiveFault power map _ _⟩,
    fun target lower state request steps => ?_⟩
  · rcases stage with ⟨state, ⟨o, k, rfl⟩, rfl, rfl⟩ | ⟨state, rfl, rfl, rfl⟩ | ⟨state, ⟨a₁, a₂, a₃, a₄, rfl⟩, rfl, rfl⟩
      | ⟨state, rfl, rfl, rfl⟩ | ⟨state, rfl, rfl, rfl⟩
    · exact reportRefused_descriptor (still state) o k code
    · exact reportRefused_run (still state) code
    · exact reportRefused_begin (still state) a₁ a₂ a₃ a₄ code
    · exact reportRefused_end (still state) code
    · exact reportRefused_start (still state) code
  · subst request
    intro u
    have lowers := (reportRefused_rate (still state) target code).trans (setRateRefused_eq steps)
    have told : post (some i) (.rateReduced target lower .refused) (s.freed i)
        = (post (some i) (.rateReduced target lower .refused) s).relink i ((s.link i).accepted none) := rfl
    have record : (post (some i) (.rateReduced target lower .refused) (s.freed i)).expected i = s.expected i := relinked.expected
    refine ⟨fun above => answers (lowers.trans ((if_neg above).trans ?_)), fun zero hold => answers (lowers.trans ((if_pos zero).trans ?_)),
      fun zero hold => answers (lowers.trans ((if_pos zero).trans ?_))⟩
    · rw [told, send_turning _ (by exact nofun)]
      rfl
    · rw [holdPointOne_held (by rw [post_ctx, freed_ctx]; exact hold)]
      rfl
    · rw [holdPointOne_free (by rw [post_ctx, freed_ctx]; exact state) (by rw [post_ctx, freed_ctx]; exact hold), enterRunWait_eq,
        post_slot, post_ctx, freed_slot, freed_ctx, record, told, State.relink, setSlot_setSlot]
      rfl

/-! ### Timeouts of the answer (R62) and the end of a stop (R26) -/

section
variable {i : SlotIx} {s : State} {r : ControlReq} {n : Nat}

theorem controlAnswerExpired_first (runs : (s.link i).answerTimer ≠ none) (pipe : (s.link i).pipe = .waiting r n false) :
    controlAnswerExpired i s = send i .again (s.relink i { s.link i with pipe := .waiting r n true, answerTimer := none }) := by
  rw [controlAnswerExpired, if_neg fun stopped => runs (Option.isNone_iff_eq_none.mp stopped), pipe]
  rfl

theorem controlAnswerExpired_second (runs : (s.link i).answerTimer ≠ none) (pipe : (s.link i).pipe = .waiting r n true) :
    controlAnswerExpired i s = reportControlTimeout i (s.relink i { s.link i with pipe := .idle, answerTimer := none }) := by
  rw [controlAnswerExpired, if_neg fun stopped => runs (Option.isNone_iff_eq_none.mp stopped), pipe]
  rfl

theorem reportControlTimeout_stage
    (state : (s.ctx i).state ∈ [CtxState.identifying, .rateTraining, .runInrush, .parameterizing, .starting]) :
    reportControlTimeout i s = transientFault i .ctrlTimeout s := by
  simp only [List.mem_cons, List.not_mem_nil, or_false] at state
  unfold reportControlTimeout
  rcases state with e | e | e | e | e
  all_goals simp only [e]

theorem reportControlTimeout_stopping (state : (s.ctx i).state = .stopping) : reportControlTimeout i s = stopEnded i s := by
  simp only [reportControlTimeout, state]

end

/-- Settles O49. -/
theorem timeoutsAndTheEndOfAStop : Obligations.TimeoutsAndTheEndOfAStop := by
  unfold Obligations.TimeoutsAndTheEndOfAStop
  intro s i x l
  have expires {t : State} (h : controlAnswerExpired i s = t) : exec (.controlAnswerTimeout i) s = .next t := congrArg Host.Outcome.next h
  refine ⟨fun stopped => expires (if_pos (Option.isNone_iff_eq_none.mpr stopped)), fun r n runs pipe => ⟨fun turnaround sending receiving =>
    expires ?_, fun busy => expires ?_⟩, fun power map => ⟨fun r n runs pipe => ?_, fun n again body state link bulk pipe number receiving reply => ?_⟩⟩
  · rw [controlAnswerExpired_first runs pipe, send_quiet _ (by rw [relink_link]; exact turnaround) (by rw [relink_link]; exact sending)
      (by rw [relink_link]; exact receiving), sendNow_again rfl]
    rfl
  · rw [controlAnswerExpired_first runs pipe, send_waits, relink_link, relink_relink]
    · rfl
    · rw [relink_link]
      exact busy.imp Option.isSome_iff_ne_none.mpr (Or.imp_left Option.isSome_iff_ne_none.mpr)
  · have relinked := relink_relinked (i := i) (s := s) (l := { s.link i with pipe := .idle, answerTimer := none }) rfl
    have second := controlAnswerExpired_second runs pipe
    refine ⟨_, expires second, fun state => ?_, fun state => ?_⟩
    · rw [reportControlTimeout_stage (by rw [relink_ctx]; exact state)]
      exact relinked.transientFault power map _
    · rw [reportControlTimeout_stopping (by rw [relink_ctx]; exact state)]
      exact relinked.withdrawn power map _
  · have relinked := freed_relinked i s
    refine ⟨stopEnded i (s.freed i), ?_, relinked.withdrawn power map _⟩
    have still : ((s.freed i).ctx i).state = .stopping := by rw [freed_ctx]; exact state
    rcases reply with rfl | ⟨c₁, c₂, rfl⟩
    · refine (exec_controlAnswer link bulk pipe number receiving (by decide) (acceptedReply_ok (data := []) rfl)).trans ?_
      exact congrArg Host.Outcome.next (reportOk_stop still [])
    · refine (exec_controlAnswer link bulk pipe number receiving (by simp) (acceptedReply_refused c₁ c₂)).trans ?_
      exact congrArg Host.Outcome.next (reportRefused_stop still _)

end Sys2Proof.Machine
end

section
/-! SUPPORT. The bulk pipe (R65 to R69). -/

namespace Sys2Proof.Machine

section
variable {i : SlotIx} {s : State} {b : Bulk}

/-- R67: the packet in flight is sent again. -/
theorem resendPacket_again (few : b.resends < 3) : resendPacket i b s = s.relink i { s.link i with
    turnaround := some 1000, next := some .packet, bulk := some { b with resends := b.resends + 1, answerTimer := none } } := by
  rw [resendPacket, if_pos few, modLink_eq_relink, send_turning _ (by exact nofun)]
  rfl

/-- R67: the fourth time. -/
theorem resendPacket_last (many : 3 ≤ b.resends) (state : (s.ctx i).state = .parameterizing) : resendPacket i b s
    = transientFault i .bulkTimeout (s.relink i { s.link i with turnaround := some 1000, bulk := none }) := by
  have reports : reportBulkFault i .bulkTimeout (s.relink i { s.link i with turnaround := some 1000, bulk := none }) = _ :=
    if_pos (by rw [relink_ctx]; exact state)
  rw [resendPacket, if_neg (Nat.not_lt.mpr many)]
  exact reports

/-- What a packet that is not acknowledged comes to, whether its answer is corrupt or missing. -/
theorem resendPacket_resends {u : State} {l : LinkEngine} (state : (s.ctx i).state = .parameterizing) (power : PowerOk s) (map : MapOk s)
    (hu : u = s.relink i l) (gone : l.gone = (s.link i).gone) :
    (b.resends < 3 → resendPacket i b u = s.relink i { l with
        turnaround := some 1000, next := some .packet, bulk := some { b with resends := b.resends + 1, answerTimer := none } })
      ∧ (3 ≤ b.resends → TransientlyFaults i .bulkTimeout s (resendPacket i b u)) := by
  subst hu
  refine ⟨fun few => ?_, fun many => ?_⟩
  · rw [resendPacket_again few, relink_link, relink_relink]
  · rw [resendPacket_last many (by rw [relink_ctx]; exact state), relink_link, relink_relink]
    exact (relink_relinked (by rw [← gone]; rfl)).transientFault power map .bulkTimeout

theorem packetAcknowledged_last (last : b.offset + b.length = b.total) (state : (s.ctx i).state = .parameterizing) :
    packetAcknowledged i b (s.heard i) = s.setSlot i { s.slot i with
      ctx := { s.ctx i with
        progress := some (b.offset + b.length), download := (s.ctx i).download.map fun d => { d with phase := .finish } }
      link := { s.link i with turnaround := some 1000, next := some (.request .paramEnd), bulk := none } } := by
  unfold packetAcknowledged
  dsimp only
  rw [if_pos last, State.heard, relink_modCtx, modLink_setSlot, reportBulkComplete, if_pos (by rw [ctx_setSlot_same]; exact state),
    bulkComplete, setPhase, modCtx_setSlot, send_setSlot_turning _ (by exact nofun)]
  rfl

theorem packetAcknowledged_next (more : b.offset + b.length ≠ b.total) :
    packetAcknowledged i b (s.heard i) = s.setSlot i { s.slot i with
      ctx := { s.ctx i with progress := some (b.offset + b.length) }
      link := { s.link i with turnaround := some 1000, next := some .packet, bulk := some b.advance } } := by
  unfold packetAcknowledged
  dsimp only
  rw [if_neg more, State.heard, relink_modCtx, modLink_setSlot, send_setSlot_turning _ (by exact nofun)]
  rfl

theorem packetDelayed_heard : packetDelayed i b (s.heard i)
    = s.relink i { s.link i with turnaround := some 1000, next := none, bulk := some b.wait } := modLink_heard i s _

theorem packetRefused_heard (state : (s.ctx i).state = .parameterizing) (detail : Nat) : packetRefused i detail (s.heard i)
    = definitiveFault i .paramStall detail (s.relink i { (s.link i).discards with bulk := none }) := by
  have reports : reportStall i detail (s.relink i { (s.link i).discards with bulk := none }) = _ :=
    if_pos (by rw [relink_ctx]; exact state)
  rw [packetRefused, modLink_heard]
  exact reports

/-! ### A message while a packet is awaited -/

theorem receiveUp_bulk (bulk : (s.link i).bulk = some b) (m : Option LinkFrame) : receiveUp i m s = receiveBulk i b m s := by
  rw [receiveUp, bulk]

theorem Bulk.awaiting_iff : b.awaiting = true ↔ b.sent = true ∧ b.backoffTimer = none := by
  rw [Bulk.awaiting, Bool.and_eq_true, Option.isNone_iff_eq_none]

variable (awaiting : b.awaiting = true)
include awaiting

theorem receiveBulk_some (f : LinkFrame) : receiveBulk i b (some f) s =
    if f.kind = 6 ∧ f.body = [] ∧ f.number = encFlag b.seqBit then packetAcknowledged i b s
    else if f.kind = 7 ∧ f.body = [] then packetDelayed i b s
    else if f.kind = 8 ∧ f.body.length = 2 then packetRefused i (numAt16 f.body 0) s
    else resendPacket i b s := by
  rw [receiveBulk, awaiting, if_neg (by decide)]
  rfl

theorem receiveBulk_ack : receiveBulk i b (parseLink (linkBytes 6 (if b.seqBit then 1 else 0) [])) s = packetAcknowledged i b s := by
  have number : (if b.seqBit then 1 else 0) % 256 = encFlag b.seqBit := by cases b.seqBit <;> rfl
  rw [parseLink_linkBytes 6 _ [] (by decide) (by decide), receiveBulk_some awaiting, if_pos ⟨rfl, rfl, number⟩]

theorem receiveBulk_wait (number : Nat) : receiveBulk i b (parseLink (linkBytes 7 number [])) s = packetDelayed i b s := by
  rw [parseLink_linkBytes 7 _ [] (by decide) (by decide), receiveBulk_some awaiting, if_neg (by simp), if_pos ⟨rfl, rfl⟩]

theorem receiveBulk_refuse (number : Nat) (d₁ d₂ : Byte) : receiveBulk i b (parseLink (linkBytes 8 number [d₁, d₂])) s
    = packetRefused i (d₁.toNat * 256 + d₂.toNat) s := by
  rw [parseLink_linkBytes 8 _ _ (by decide) (by simp), receiveBulk_some awaiting, if_neg (by simp), if_neg (by simp),
    if_pos ⟨rfl, rfl⟩]
  rfl

/-- R67: every message that is no intact answer to the packet has it sent again. -/
theorem receiveBulk_corrupt {m : Bytes} (ack : m ≠ linkBytes 6 (if b.seqBit then 1 else 0) []) (wait : ∀ number, m ≠ linkBytes 7 number [])
    (refuse : ∀ number d₁ d₂, m ≠ linkBytes 8 number [d₁, d₂]) : receiveBulk i b (parseLink m) s = resendPacket i b s := by
  cases parsed : parseLink m with
  | none =>
    rw [receiveBulk, awaiting, if_neg (by decide)]
  | some f =>
    have read := linkBytes_of_parseLink parsed
    rw [receiveBulk_some awaiting, if_neg, if_neg, if_neg]
    · rintro ⟨kind, length⟩
      obtain ⟨d₁, d₂, body⟩ := List.length_eq_two.mp length
      exact refuse f.number d₁ d₂ (by rw [read, kind, body])
    · rintro ⟨kind, body⟩
      exact wait f.number (by rw [read, kind, body])
    · rintro ⟨kind, body, number⟩
      refine ack ?_
      rw [read, kind, body, number]
      cases b.seqBit <;> rfl

end

/-! ### The timers of the bulk pipe -/

section
variable {i : SlotIx} {s : State} {b : Bulk}

theorem bulkAnswerExpired_eq (bulk : (s.link i).bulk = some b) :
    bulkAnswerExpired i s = if b.answerTimer.isNone then s else resendPacket i b s := by
  rw [bulkAnswerExpired, bulk]

theorem backoffExpired_eq (bulk : (s.link i).bulk = some b) : backoffExpired i s = if b.backoffTimer.isNone then s
    else send i .packet (s.relink i { s.link i with bulk := some { b with backoffTimer := none } }) := by
  rw [backoffExpired, bulk]
  rfl

theorem bulkWaitExpired_eq (bulk : (s.link i).bulk = some b) : bulkWaitExpired i s = if b.waitTimer.isNone then s
    else reportBulkFault i .paramBusyTimeout (s.relink i { s.link i with bulk := none }) := by
  rw [bulkWaitExpired, bulk]
  rfl

end

/-- Settles O50. -/
theorem bulkAnswersMoveTheDownload : Obligations.BulkAnswersMoveTheDownload := by
  unfold Obligations.BulkAnswersMoveTheDownload
  intro s i b x l link bulk state power map goes after ack acked resends
  have stopped {α : Type} {o : Option α} (h : o ≠ none) : ¬ o.isNone = true := fun e => h (Option.isNone_iff_eq_none.mp e)
  refine ⟨fun sent backoff receiving => ?_, fun runs => ?_, fun idle => congrArg Host.Outcome.next ?_, fun runs n pinned => ?_,
    fun idle => congrArg Host.Outcome.next ?_, fun runs => ⟨_, rfl, ?_⟩, fun idle => congrArg Host.Outcome.next ?_⟩
  · have awaiting : b.awaiting = true := Bulk.awaiting_iff.mpr ⟨sent, backoff⟩
    have hears {c : Instr} {m : Bytes} {t : State} (row : c ∈ linkRows i m) (h : receiveBulk i b (parseLink m) (s.heard i) = t) :
        exec c s = .next t := by
      rw [exec_linkRow row, receive_heard receiving, deliver_up (by rw [heard_link]; exact link),
        receiveUp_bulk (b := b) (by rw [heard_link]; exact bulk), h]
    refine ⟨fun last => hears (by simp [linkRows, ack]) ((receiveBulk_ack awaiting).trans (packetAcknowledged_last last state)),
      fun more => hears (by simp [linkRows, ack]) ((receiveBulk_ack awaiting).trans (packetAcknowledged_next more)),
      fun number => hears (by simp [linkRows]) ((receiveBulk_wait awaiting number).trans packetDelayed_heard),
      fun number d₁ d₂ => ⟨_, hears (by simp [linkRows])
        ((receiveBulk_refuse awaiting number d₁ d₂).trans (packetRefused_heard state _)), ?_⟩, fun m noAck noWait noRefuse => ?_⟩
    · have relinked : Relinked i s (s.relink i { (s.link i).discards with bulk := none }) := relink_relinked rfl
      exact relinked.definitiveFault power map _ _
    · obtain ⟨few, many⟩ := resendPacket_resends (b := b) (u := s.heard i) state power map rfl rfl
      have corrupt := receiveBulk_corrupt (i := i) (s := s.heard i) awaiting noAck noWait noRefuse
      have row {c : Instr} (h : c ∈ linkRows i m) : resends c :=
        ⟨fun less => hears h (corrupt.trans (few less)), fun more => ⟨_, hears h corrupt, many more⟩⟩
      exact ⟨row (by simp [linkRows]), row (by simp [linkRows])⟩
  · have expires : exec (.bulkAnswerTimeout i) s = .next (resendPacket i b s) :=
      congrArg Host.Outcome.next ((bulkAnswerExpired_eq bulk).trans (if_neg (stopped runs)))
    obtain ⟨few, many⟩ := resendPacket_resends (b := b) (u := s) state power map (relink_self s i _ rfl).symm rfl
    exact ⟨fun less => expires.trans (congrArg Host.Outcome.next (few less)), fun more => ⟨_, expires, many more⟩⟩
  · exact (bulkAnswerExpired_eq bulk).trans (if_pos (Option.isNone_iff_eq_none.mpr idle))
  · intro fresh
    have expires := (backoffExpired_eq bulk).trans (if_neg (stopped runs))
    refine ⟨fun turnaround sending receiving => congrArg Host.Outcome.next (expires.trans ?_),
      fun busy => congrArg Host.Outcome.next (expires.trans ?_)⟩
    · rw [send_quiet _ (by rw [relink_link]; exact turnaround) (by rw [relink_link]; exact sending) (by rw [relink_link]; exact receiving),
        sendNow_packet rfl pinned]
      rfl
    · rw [send_waits, relink_link, relink_relink]
      · rfl
      · rw [relink_link]
        exact busy.imp Option.isSome_iff_ne_none.mpr (Or.imp_left Option.isSome_iff_ne_none.mpr)
  · exact (backoffExpired_eq bulk).trans (if_pos (Option.isNone_iff_eq_none.mpr idle))
  · have reports : bulkWaitExpired i s = transientFault i .paramBusyTimeout (s.relink i { s.link i with bulk := none }) :=
      ((bulkWaitExpired_eq bulk).trans (if_neg (stopped runs))).trans (if_pos (by rw [relink_ctx]; exact state))
    have relinked : Relinked i s (s.relink i { s.link i with bulk := none }) := relink_relinked rfl
    rw [reports]
    exact relinked.transientFault power map _
  · exact (bulkWaitExpired_eq bulk).trans (if_pos (Option.isNone_iff_eq_none.mpr idle))

end Sys2Proof.Machine
end

section
/-! SUPPORT. Messages that answer nothing (R53), cyclic inputs (R71, R72) and the link-alive line (R56). -/

namespace Sys2Proof.Machine

section
variable {i : SlotIx} {s : State}

/-! ### Cyclic inputs (R71, R72) -/

theorem CtxState.exchanges_iff (st : CtxState) : st.exchanges = true ↔ st ∈ [CtxState.running, .draining] := by
  cases st <;> decide

theorem Slot.goodInputs_some {x : Slot} {f : LinkFrame} {inputs : Bytes} (h : x.goodInputs (some f) = some inputs) :
    f.kind = 10 ∧ f.body = inputs ∧ inputs.length = x.ctx.ci ∧ x.ctx.state.exchanges = true ∧ x.link.exchange ≠ none
      ∧ x.link.sending = none ∧ x.link.next = none := by
  unfold Slot.goodInputs at h
  dsimp only at h
  split at h
  · next good =>
    obtain ⟨kind, length, exchanges, flight, sending, next⟩ := good
    obtain rfl := Option.some.inj h
    exact ⟨kind, rfl, length, exchanges, Option.isSome_iff_ne_none.mp flight, sending, next⟩
  · cases h

theorem Slot.goodInputs_of {x : Slot} {f : LinkFrame} (kind : f.kind = 10) (length : f.body.length = x.ctx.ci)
    (state : x.ctx.state.exchanges = true) (flight : x.link.exchange ≠ none) (sending : x.link.sending = none) (next : x.link.next = none) :
    x.goodInputs (some f) = some f.body :=
  if_pos ⟨kind, length, state, Option.isSome_iff_ne_none.mpr flight, sending, next⟩

theorem receiveUp_cyclic (bulk : (s.link i).bulk = none) (pipe : (s.link i).pipe = .idle) (m : Option LinkFrame) :
    receiveUp i m s = receiveCyclic i m s := by
  rw [receiveUp, bulk, pipe]

theorem goodExchange_heard (inputs : Bytes) : goodExchange i inputs (s.heard i) = s.setSlot i { s.slot i with
    ctx := { s.ctx i with
      missCount := 0, goodRun := min 1000 ((s.ctx i).goodRun + 1)
      attempts := if 999 ≤ (s.ctx i).goodRun then 0 else (s.ctx i).attempts }
    map := { s.map i with latest := some inputs }
    link := { s.link i with turnaround := some 1000, input := .fresh, exchange := none } } := by
  have full : (min 1000 ((s.ctx i).goodRun + 1) = 1000) = (999 ≤ (s.ctx i).goodRun) := by
    refine propext ?_
    omega
  rw [goodExchange, State.heard, modLink_relink, State.relink, modMap_setSlot, modCtx_setSlot]
  simp only [Config.goodRunMax]
  rw [show (s.slot i).ctx = s.ctx i from rfl]
  simp only [full]
  rfl

/-! ### Control answers that are none -/

/-- R63, R204: an accepted answer is OK with the data its request asks for, or REFUSE with two bytes. -/
theorem answer_of_acceptedReply {r : ControlReq} {n : Nat} {m : Bytes} {reply : ControlReply}
    (h : acceptedReply r n (parseLink m) = some reply) :
    (∃ data, data.length = r.answerLength ∧ m = linkBytes 4 n (0 :: data)) ∨ ∃ c₁ c₂, m = linkBytes 4 n [1, c₁, c₂] := by
  cases parsed : parseLink m with
  | none => rw [parsed] at h; cases h
  | some f =>
    have read := linkBytes_of_parseLink parsed
    rw [parsed, acceptedReply] at h
    by_cases addressed : f.kind = kindControlAnswer ∧ f.number = n
    · rw [if_pos addressed] at h
      obtain ⟨kind, number⟩ := addressed
      rw [kind, number] at read
      cases body : f.body with
      | nil => rw [body] at h; cases h
      | cons code rest =>
        by_cases ok : code = 0
        · subst ok
          have isOk : controlReply (0 :: rest) = some (.ok rest) := by simp [controlReply]
          rw [body, isOk] at h
          by_cases length : rest.length = r.answerLength
          · exact .inl ⟨rest, length, by rw [read, body]; rfl⟩
          · dsimp only at h
            rw [if_neg length] at h
            cases h
        · by_cases refused : code = 1 ∧ rest.length = 2
          · obtain ⟨rfl, two⟩ := refused
            obtain ⟨c₁, c₂, rfl⟩ := List.length_eq_two.mp two
            exact .inr ⟨c₁, c₂, by rw [read, body]; rfl⟩
          · have none : controlReply (code :: rest) = none := by
              rw [controlReply, if_neg ok, if_neg refused]
            rw [body, none] at h
            cases h
    · rw [if_neg addressed] at h
      cases h

/-! ### Messages discarded (R53) -/

theorem deliver_down (h : (s.link i).link = .down) (m : Option LinkFrame) : deliver i m s = s := by rw [deliver, h]
theorem deliver_failed (h : (s.link i).link = .failed) (m : Option LinkFrame) : deliver i m s = s := by rw [deliver, h]

theorem deliver_unawaited (h : (s.link i).link = .training) (idle : (s.link i).echoTimer = none) (m : Option LinkFrame) :
    deliver i m s = s := by
  rw [deliver_training h]
  exact if_pos (Option.isNone_iff_eq_none.mpr idle)

theorem deliver_unsent (h : (s.link i).link = .up) {b : Bulk} (bulk : (s.link i).bulk = some b)
    (away : b.sent = false ∨ b.backoffTimer ≠ none) (m : Option LinkFrame) : deliver i m s = s := by
  have notAwaiting : b.awaiting = false := by
    cases awaiting : b.awaiting with
    | false => rfl
    | true =>
      obtain ⟨sent, backoff⟩ := Bulk.awaiting_iff.mp awaiting
      rcases away with unsent | busy
      · cases sent.symm.trans unsent
      · exact absurd backoff busy
  rw [deliver_up h, receiveUp_bulk bulk]
  exact if_pos notAwaiting

theorem deliver_unanswering (h : (s.link i).link = .up) (bulk : (s.link i).bulk = none) {r : ControlReq} {n : Nat} {again : Bool}
    (pipe : (s.link i).pipe = .waiting r n again) {m : Option LinkFrame} (none : acceptedReply r n m = none) : deliver i m s = s := by
  rw [deliver_up h, receiveUp_control bulk pipe, receiveControl, none]

theorem deliver_noInput (h : (s.link i).link = .up) (bulk : (s.link i).bulk = none) (pipe : (s.link i).pipe = .idle)
    {m : Option LinkFrame} (none : (s.slot i).goodInputs m = none) : deliver i m s = s := by
  rw [deliver_up h, receiveUp_cyclic bulk pipe, receiveCyclic, none]

end

/-- Settles O51. -/
theorem messagesAreTakenAsAnswers : Obligations.MessagesAreTakenAsAnswers := by
  unfold Obligations.MessagesAreTakenAsAnswers
  intro s i m x l rows
  refine ⟨fun number inputs message length small link bulk pipe flight sending next receiving state => ?_,
    fun receiving discarded c row => ?_, fun receiving c row => ?_⟩
  · subst message
    have good : ((s.heard i).slot i).goodInputs (parseLink (linkBytes 10 number inputs)) = some inputs := by
      rw [parseLink_linkBytes 10 number inputs (by decide) (by omega), heard_slot]
      exact Slot.goodInputs_of rfl length ((CtxState.exchanges_iff _).mpr state) flight sending next
    rw [exec_linkRow (i := i) (m := linkBytes 10 number inputs) (by simp [linkRows]), receive_heard receiving,
      deliver_up (by rw [heard_link]; exact link), receiveUp_cyclic (by rw [heard_link]; exact bulk) (by rw [heard_link]; exact pipe),
      receiveCyclic, good]
    exact congrArg Host.Outcome.next (goodExchange_heard inputs)
  · have stays : deliver i (parseLink m) (s.heard i) = s.heard i := by
      rcases discarded with down | failed | ⟨training, idle⟩ | ⟨link, b, bulk, away⟩ | ⟨link, bulk, r, n, again, pipe, noOk, noRefusal⟩
        | ⟨link, bulk, pipe, noInput⟩
      · exact deliver_down (by rw [heard_link]; exact down) _
      · exact deliver_failed (by rw [heard_link]; exact failed) _
      · exact deliver_unawaited (by rw [heard_link]; exact training) (by rw [heard_link]; exact idle) _
      · exact deliver_unsent (b := b) (by rw [heard_link]; exact link) (by rw [heard_link]; exact bulk) away _
      · refine deliver_unanswering (r := r) (n := n) (again := again) (by rw [heard_link]; exact link) (by rw [heard_link]; exact bulk)
          (by rw [heard_link]; exact pipe) ?_
        cases answer : acceptedReply r n (parseLink m) with
        | none => rfl
        | some reply =>
          rcases answer_of_acceptedReply answer with ⟨data, length, message⟩ | ⟨c₁, c₂, message⟩
          · refine absurd message (noOk data (length.trans ?_))
            cases r <;> rfl
          · exact absurd message (noRefusal c₁ c₂)
      · refine deliver_noInput (by rw [heard_link]; exact link) (by rw [heard_link]; exact bulk) (by rw [heard_link]; exact pipe) ?_
        cases parsed : parseLink m with
        | none => rfl
        | some f =>
          cases good : ((s.heard i).slot i).goodInputs (some f) with
          | none => rfl
          | some inputs =>
            obtain ⟨kind, body, length, state, flight, sending, next⟩ := Slot.goodInputs_some good
            rw [heard_slot] at length state flight sending next
            rcases noInput with none | sends | waits | away | other
            · exact absurd none flight
            · exact absurd sending sends
            · exact absurd next waits
            · exact absurd ((CtxState.exchanges_iff _).mp state) away
            · refine absurd ?_ (other f.number inputs length)
              rw [linkBytes_of_parseLink parsed, kind, body]
    rw [exec_linkRow row, receive_heard receiving, stays]
    rfl
  · rw [exec_linkRow row, receive_interrupted receiving]
    rfl

/-! ### The link-alive line (R56) -/

section
variable {i : SlotIx} {s : State}

theorem CtxState.dropTransient_iff (st : CtxState) : st.dropTransient = true ↔ st ∈ [CtxState.identifying, .parked, .rateTraining,
    .runWait, .runInrush, .parameterizing, .ready, .starting, .admitPending] := by
  cases st <;> decide

theorem reportLinkDrop_transient (h : (s.ctx i).state.dropTransient = true) : reportLinkDrop i s = transientFault i .linkDrop s := if_pos h

theorem reportLinkDrop_stopping (h : (s.ctx i).state = .stopping) : reportLinkDrop i s = stopEnded i s := by
  rw [reportLinkDrop, h, if_neg (by decide), if_pos rfl]

theorem reportLinkDrop_elsewhere (h : ¬ (s.ctx i).state.dropTransient = true) (away : (s.ctx i).state ≠ .stopping) :
    reportLinkDrop i s = s := (if_neg h).trans (if_neg away)

theorem ReadyOutOfQueue.relink (h : ReadyOutOfQueue s) (l : LinkEngine) : ReadyOutOfQueue (s.relink i l) :=
  h.congr (fun j => by rw [show (s.relink i l).ctx j = s.ctx j from modLink_ctx i j (fun _ => l) s]) rfl

end

/-- Settles O52. -/
theorem linkAliveAndLinkDrop : Obligations.LinkAliveAndLinkDrop := by
  unfold Obligations.LinkAliveAndLinkDrop
  intro s i x l
  have changes {present : Bool} {l' : LinkEngine} (h : aliveChanged present l = l') :
      exec (.linkAliveChange i present) s = .next (s.relink i l') :=
    congrArg Host.Outcome.next ((modLink_eq_relink s i (aliveChanged present)).trans (congrArg (s.relink i) h))
  refine ⟨fun present same => (changes (if_pos same)).trans (congrArg Host.Outcome.next (relink_self s i _ rfl)), fun gone => changes ?_,
    fun alive => changes ?_, fun idle => congrArg Host.Outcome.next (if_pos (Option.isNone_iff_eq_none.mpr idle)),
    fun counts power map => ?_⟩
  · rw [aliveChanged, gone]
    rfl
  · rw [aliveChanged, alive]
    rfl
  · intro u transient
    have free : ReadyOutOfQueue u := power.readyOutOfQueue.relink _
    have ctx : u.ctx i = s.ctx i := relink_ctx s i _
    have windows : u.map i = s.map i := relink_map s i _
    have off : (u.slotPower i).switchOn = false → (u.slotPower i).off = u.slotPower i ∧ (u.ctx i).heldDraw = 0 := by
      rw [ctx, show u.slotPower i = s.slotPower i from relink_slotPower s i _]
      exact power.off i
    have paired : (u.map i).paired := windows ▸ map.paired i
    have drops : exec (.linkDrop i) s = .next (reportLinkDrop i u) :=
      congrArg Host.Outcome.next (if_neg fun idle => counts (Option.isNone_iff_eq_none.mp idle))
    have isTransient : (u.ctx i).state.dropTransient = true ↔ transient := by
      rw [ctx]
      exact CtxState.dropTransient_iff _
    refine ⟨_, drops, ?_, fun fault => ?_, fun stopping => ?_, fun away still => reportLinkDrop_elsewhere (fun e => away (isTransient.mp e))
      (by rw [ctx]; exact still)⟩
    · by_cases fault : transient
      · rw [reportLinkDrop_transient (isTransient.mpr fault)]
        exact transientFault_rechecked .linkDrop free off paired
      by_cases stopping : (s.ctx i).state = .stopping
      · rw [reportLinkDrop_stopping (by rw [ctx]; exact stopping)]
        exact withdraws_rechecked .command free off paired
      rw [reportLinkDrop_elsewhere (fun e => fault (isTransient.mp e)) (by rw [ctx]; exact stopping)]
      refine (free.stand i).rechecked_none ?_
      rw [windows]
      refine map.unarmed fun pending => fault ?_
      show (s.ctx i).state ∈ _
      rw [pending]
      decide
    · rw [reportLinkDrop_transient (isTransient.mpr fault)]
      exact transientFault_faults i .linkDrop u off paired
    · rw [reportLinkDrop_stopping (by rw [ctx]; exact stopping)]
      exact withReleases_withdraws i .command u off paired

end Sys2Proof.Machine
end

section
/-! SUPPORT. The descriptor walk (R76 to R89): the header checks one after the other, the bodies by their kind, and what follows a
block. -/

namespace Sys2Proof.Machine

/-! ### Sorting by a key -/

theorem sortBy_eq_insertionSort {α : Type} (key : α → Nat) (l : List α) :
    sortBy key l = l.insertionSort fun x y => key x ≤ key y := by
  induction l with
  | nil => rfl
  | cons a l ih => exact (insertBy_eq_orderedInsert key a _).trans (congrArg _ ih)

theorem sortBy_perm {α : Type} (key : α → Nat) (l : List α) : (sortBy key l).Perm l :=
  sortBy_eq_insertionSort key l ▸ List.perm_insertionSort _ l

theorem sortBy_sorted {α : Type} (key : α → Nat) (l : List α) : ((sortBy key l).map key).Pairwise (· ≤ ·) := by
  have : Std.Total fun x y : α => key x ≤ key y := ⟨fun x y => Nat.le_total (key x) (key y)⟩
  have : IsTrans α fun x y => key x ≤ key y := ⟨fun _ _ _ => Nat.le_trans⟩
  rw [sortBy_eq_insertionSort, List.pairwise_map]
  exact List.pairwise_insertionSort _ l

/-! ### The sub-modules of an identity (R88, R89) -/

/-- R80: the entry of a LAYOUT body that a sub-module stands for. -/
def SubModule.entry (m : SubModule) : LayoutEntry :=
  { position := m.position, type := m.type, outBytes := m.outBytes, inBytes := m.inBytes }

theorem placeSubs_entries (es : List LayoutEntry) : ∀ o i : Nat, (placeSubs o i es).map SubModule.entry = es := by
  induction es with
  | nil => exact fun _ _ => rfl
  | cons e es ih => exact fun o i => congrArg (e :: ·) (ih _ _)

theorem placeSubs_positions (o i : Nat) (es : List LayoutEntry) :
    (placeSubs o i es).map SubModule.position = es.map LayoutEntry.position := by
  conv_rhs => rw [← placeSubs_entries es o i, List.map_map]
  rfl

theorem placeSubs_offsets (es : List LayoutEntry) : ∀ (o i : Nat) (pre : List SubModule) (m : SubModule) (rest : List SubModule),
    placeSubs o i es = pre ++ m :: rest →
    m.outOffset = o + (pre.map SubModule.outBytes).sum ∧ m.inOffset = i + (pre.map SubModule.inBytes).sum := by
  induction es with
  | nil => exact fun o i pre m rest h => absurd h (by simp [placeSubs])
  | cons e es ih =>
    intro o i pre m rest h
    cases pre with
    | nil => cases h; exact ⟨rfl, rfl⟩
    | cons p pre =>
      obtain ⟨rfl, later⟩ := List.cons.inj h
      obtain ⟨out, inp⟩ := ih _ _ pre m rest later
      simp only [List.map_cons, List.sum_cons]
      omega

theorem identityOf_gathers (ident : IdentBody) (supply : Nat × Nat) (link : RateCode × Nat) (layout : LayoutBody)
    (param : Option ParamDecl) : (identityOf ident supply link layout param).Gathers ident supply link layout param where
  ident := ⟨rfl, rfl, rfl, rfl⟩
  supply := ⟨rfl, rfl⟩
  link := ⟨rfl, rfl⟩
  bases := ⟨rfl, rfl⟩
  entries := by
    have placed := placeSubs_entries (sortBy LayoutEntry.position layout.entries) layout.baseOut layout.baseIn
    exact (List.Perm.of_eq placed).trans (sortBy_perm _ _)
  order := by
    have sorted := sortBy_sorted LayoutEntry.position layout.entries
    rw [← placeSubs_positions layout.baseOut layout.baseIn] at sorted
    exact sorted
  offsets := placeSubs_offsets _ _ _
  totals := ⟨rfl, rfl⟩
  param := rfl

/-! ### What follows a block (R85) -/

theorem finishWalk_complete {g : Gathered} {ident : IdentBody} {supply : Nat × Nat} {link : RateCode × Nat} {layout : LayoutBody}
    (i : g.ident = some ident) (s : g.supply = some supply) (l : g.link = some link) (y : g.layout = some layout) :
    finishWalk g = .complete (identityOf ident supply link layout g.param) := by
  simp only [finishWalk, i, s, l, y]

theorem finishWalk_supply {g : Gathered} (s : g.supply = none) : finishWalk g = .failed { kind := .chainIncomplete, detail := 2 } := by
  simp only [finishWalk, s]

theorem finishWalk_link {g : Gathered} (s : g.supply ≠ none) (l : g.link = none) :
    finishWalk g = .failed { kind := .chainIncomplete, detail := 3 } := by
  obtain ⟨supply, s⟩ := Option.ne_none_iff_exists'.mp s
  simp only [finishWalk, s, l]

theorem finishWalk_layout {g : Gathered} (s : g.supply ≠ none) (l : g.link ≠ none) (y : g.layout = none) :
    finishWalk g = .failed { kind := .chainIncomplete, detail := 4 } := by
  obtain ⟨supply, s⟩ := Option.ne_none_iff_exists'.mp s
  obtain ⟨link, l⟩ := Option.ne_none_iff_exists'.mp l
  simp only [finishWalk, s, l, y]

theorem nextBlock_goesOn (w : Walk) (fields : Gathered) (next : Nat) :
    w.GoesOn fields next (nextBlock { w with fields := fields } next) := by
  refine ⟨fun more => if_neg more, fun last => ?_⟩
  have ends : nextBlock { w with fields := fields } next = finishWalk fields := if_pos last
  rw [ends]
  exact ⟨finishWalk_supply, finishWalk_link, finishWalk_layout,
    fun ident supply link layout i s l y => ⟨_, finishWalk_complete i s l y, identityOf_gathers ..⟩⟩

/-! ### The kinds of a block (R76) -/

theorem blockKind_isSome (n : Nat) : (∃ k, blockKind n = some k) ↔ 1 ≤ n ∧ n ≤ 5 := by
  constructor
  · rintro ⟨k, h⟩
    by_contra outside
    have unknown : blockKind n = none := by
      unfold blockKind
      rw [if_neg (by omega), if_neg (by omega), if_neg (by omega), if_neg (by omega), if_neg (by omega)]
    exact absurd (unknown ▸ h) nofun
  · rintro ⟨low, high⟩
    obtain rfl | rfl | rfl | rfl | rfl : n = 1 ∨ n = 2 ∨ n = 3 ∨ n = 4 ∨ n = 5 := by omega
    all_goals exact ⟨_, rfl⟩

theorem blockKind_eq_none {n : Nat} (h : ¬ (1 ≤ n ∧ n ≤ 5)) : blockKind n = none :=
  Option.eq_none_iff_forall_ne_some.mpr fun k known => h ((blockKind_isSome n).mp ⟨k, known⟩)

theorem blockKind_ident (n : Nat) : blockKind n = some .ident ↔ n = 1 := by
  refine ⟨fun h => ?_, fun h => h ▸ rfl⟩
  obtain ⟨low, high⟩ := (blockKind_isSome n).mp ⟨_, h⟩
  obtain rfl | rfl | rfl | rfl | rfl : n = 1 ∨ n = 2 ∨ n = 3 ∨ n = 4 ∨ n = 5 := by omega
  · rfl
  all_goals exact absurd h (by decide)

theorem blockKind_minimum {n : Nat} {k : BlockKind} (h : blockKind n = some k) : [0, 10, 4, 3, 5, 4].getD n 0 = k.minimum := by
  obtain ⟨low, high⟩ := (blockKind_isSome n).mp ⟨k, h⟩
  obtain rfl | rfl | rfl | rfl | rfl : n = 1 ∨ n = 2 ∨ n = 3 ∨ n = 4 ∨ n = 5 := by omega
  all_goals cases h; rfl

/-! ### The checks of a header, each in its turn (R83) -/

/-- R83: the block of a header has been seen before. -/
theorem any_contains_iff (kind : Nat) (kinds : List BlockKind) :
    (blockKind kind).any (fun k => kinds.contains k) = true ↔ ∃ k, blockKind kind = some k ∧ k ∈ kinds := by
  simp [Option.any_eq_true]

theorem any_short_iff (kind length : Nat) : (blockKind kind).any (fun k => decide (length < k.minimum)) = true
    ↔ (1 ≤ kind ∧ kind ≤ 5) ∧ length < [0, 10, 4, 3, 5, 4].getD kind 0 := by
  rw [Option.any_eq_true, ← blockKind_isSome]
  constructor
  · rintro ⟨k, known, short⟩
    exact ⟨⟨k, known⟩, blockKind_minimum known ▸ of_decide_eq_true short⟩
  · rintro ⟨⟨k, known⟩, short⟩
    exact ⟨k, known, decide_eq_true (blockKind_minimum known ▸ short)⟩

section
variable {w : Walk} {h : BlockHeader}

theorem walkHeader_fault {bs : Bytes} {f : WalkFault} (faulty : headerFault w (headerOf bs) = some f) :
    walkHeader w bs = .failed f := by
  simp only [walkHeader, faulty]

theorem headerFault_order (order : w.number = 1 ∧ h.kind ≠ 1) :
    headerFault w h = some { kind := .chainOrder, detail := h.kind } :=
  if_pos ⟨order.1, fun known => order.2 ((blockKind_ident _).mp known)⟩

theorem headerFault_past_order (order : ¬ (w.number = 1 ∧ h.kind ≠ 1)) :
    ¬ (w.number = 1 ∧ blockKind h.kind ≠ some .ident) :=
  fun bad => order ⟨bad.1, fun kind => bad.2 ((blockKind_ident _).mpr kind)⟩

theorem headerFault_range (order : ¬ (w.number = 1 ∧ h.kind ≠ 1)) (range : 252 < h.bodyLength ∨ 1024 < w.offset + 4 + h.bodyLength) :
    headerFault w h = some { kind := .chainRange, detail := w.offset } :=
  (if_neg (headerFault_past_order order)).trans (if_pos range)

theorem headerFault_seen (order : ¬ (w.number = 1 ∧ h.kind ≠ 1))
    (range : ¬ (252 < h.bodyLength ∨ 1024 < w.offset + 4 + h.bodyLength))
    (seen : ∃ k, blockKind h.kind = some k ∧ k ∈ w.kinds) : headerFault w h = some { kind := .chainDup, detail := w.offset } :=
  ((if_neg (headerFault_past_order order)).trans (if_neg range)).trans (if_pos ((any_contains_iff _ _).mpr seen))

/-- R83: the faults the checks past the third find. -/
theorem headerFault_past_seen (order : ¬ (w.number = 1 ∧ h.kind ≠ 1))
    (range : ¬ (252 < h.bodyLength ∨ 1024 < w.offset + 4 + h.bodyLength))
    (seen : ¬ ∃ k, blockKind h.kind = some k ∧ k ∈ w.kinds) :
    headerFault w h = if h.next ≠ 0 ∧ (h.next % 4 ≠ 0 ∨ h.next ≥ 1024) then some ⟨.chainRange, h.next⟩
      else if h.next ≠ 0 ∧ w.number = 16 then some ⟨.chainLong, w.offset⟩
      else if (blockKind h.kind).any (fun k => decide (h.bodyLength < k.minimum)) then some ⟨.blockShort, w.offset⟩
      else none :=
  ((if_neg (headerFault_past_order order)).trans (if_neg range)).trans
    (if_neg fun again => seen ((any_contains_iff _ _).mp again))

end

theorem walkHeader_known {w : Walk} {bs : Bytes} {k : BlockKind} (good : headerFault w (headerOf bs) = none)
    (known : blockKind (headerOf bs).kind = some k) : walkHeader w bs = .read
      { w with stage := .body [], header := some (headerOf bs), kinds := w.kinds ++ [k] } (w.offset + 4)
      (min 64 (headerOf bs).bodyLength) := by
  simp only [walkHeader, good, known]

theorem walkHeader_unknown {w : Walk} {bs : Bytes} (good : headerFault w (headerOf bs) = none)
    (unknown : blockKind (headerOf bs).kind = none) : walkHeader w bs = nextBlock w (headerOf bs).next := by
  simp only [walkHeader, good, unknown]

theorem walkStep_header {w : Walk} (stage : w.stage = .header) (bs : Bytes) : walkStep w bs = walkHeader w bs := by
  simp only [walkStep, stage]

/-! ### The bodies (R77 to R81, R84) -/

section
variable {w : Walk} {h : BlockHeader} {gathered bytes : Bytes}

theorem walkStep_body (stage : w.stage = .body gathered) (header : w.header = some h) :
    walkStep w bytes = walkBody w h gathered bytes := by
  simp only [walkStep, stage, header]

theorem walkBody_decoded {k : BlockKind} {g : Gathered} (whole : h.bodyLength ≤ (gathered ++ bytes).length)
    (known : blockKind h.kind = some k) (decoded : decodeBody w.offset k (gathered ++ bytes) w.fields = .ok g) :
    walkBody w h gathered bytes = nextBlock { w with fields := g } h.next := by
  simp only [walkBody, if_neg (Nat.not_lt.mpr whole), known, decoded]

theorem walkBody_failed {k : BlockKind} {f : WalkFault} (whole : h.bodyLength ≤ (gathered ++ bytes).length)
    (known : blockKind h.kind = some k) (faulty : decodeBody w.offset k (gathered ++ bytes) w.fields = .error f) :
    walkBody w h gathered bytes = .failed f := by
  simp only [walkBody, if_neg (Nat.not_lt.mpr whole), known, faulty]

end

theorem decodeBody_layout_failed {offset : Nat} {body : Bytes} {g : Gathered} {f : WalkFault} (faulty : layoutFault offset body = some f) :
    decodeBody offset .layout body g = .error f := by
  simp only [decodeBody, faulty]

theorem decodeBody_layout_good {offset : Nat} {body : Bytes} {g : Gathered} (good : layoutFault offset body = none) :
    decodeBody offset .layout body g = .ok { g with layout := some (layoutOf body) } := by
  simp only [decodeBody, good]

theorem recordedRate_eq {declared : Nat} {code : RateCode} (h : code.val = min declared 3) : recordedRate declared = code :=
  Fin.ext ((Nat.mod_eq_of_lt (Nat.lt_succ_of_le (Nat.min_le_right declared 3))).trans h.symm)

/-! ### The entries of a LAYOUT body (R80) -/

/-- R80 step 3: an entry behind others passes. -/
def LayoutEntry.goodAfter (earlier : List Nat) (e : LayoutEntry) : Prop :=
  e.position ≤ 7 ∧ e.position ∉ earlier ∧ ¬ (64 < e.outBytes ∨ 64 < e.inBytes)

theorem entriesFault_past {e : LayoutEntry} {earlier : List Nat} (good : e.goodAfter earlier) (es : List LayoutEntry) :
    entriesFault earlier (e :: es) = entriesFault (earlier ++ [e.position]) es :=
  ((if_neg (Nat.not_lt.mpr good.1)).trans (if_neg good.2.1)).trans (if_neg good.2.2)

/-- R80 step 3: the check reaches an entry past those before it that pass. -/
theorem entriesFault_reaches (es : List LayoutEntry) : ∀ (pre : List LayoutEntry) (earlier : List Nat),
    (∀ k (h : k < pre.length), pre[k].goodAfter (earlier ++ (pre.take k).map LayoutEntry.position)) →
    entriesFault earlier (pre ++ es) = entriesFault (earlier ++ pre.map LayoutEntry.position) es := by
  intro pre
  induction pre with
  | nil => exact fun earlier _ => congrArg (entriesFault · es) (List.append_nil earlier).symm
  | cons e pre ih =>
    intro earlier good
    have first : e.goodAfter earlier := by
      have := good 0 (by simp)
      simpa using this
    rw [List.cons_append, entriesFault_past first, ih]
    · simp
    · intro k h
      have := good (k + 1) (by simpa using h)
      simpa using this

theorem entriesFault_cons_position {e : LayoutEntry} {earlier : List Nat} (es : List LayoutEntry) (h : 7 < e.position) :
    entriesFault earlier (e :: es) = some 2 := if_pos h

theorem entriesFault_cons_repeated {e : LayoutEntry} {earlier : List Nat} (es : List LayoutEntry) (h : e.position ≤ 7)
    (again : e.position ∈ earlier) : entriesFault earlier (e :: es) = some 3 := (if_neg (Nat.not_lt.mpr h)).trans (if_pos again)

theorem entriesFault_cons_large {e : LayoutEntry} {earlier : List Nat} (es : List LayoutEntry) (h : e.position ≤ 7)
    (fresh : e.position ∉ earlier) (large : 64 < e.outBytes ∨ 64 < e.inBytes) : entriesFault earlier (e :: es) = some 4 :=
  ((if_neg (Nat.not_lt.mpr h)).trans (if_neg fresh)).trans (if_pos large)

section
variable (body : Bytes)

/-- R80 step 3: the entry at an index passes. -/
def EntryGood (j : Nat) : Prop :=
  (layoutEntry body j).position ≤ 7 ∧ (¬ ∃ k, k < j ∧ (layoutEntry body k).position = (layoutEntry body j).position)
    ∧ ¬ (64 < (layoutEntry body j).outBytes ∨ 64 < (layoutEntry body j).inBytes)

theorem mem_earlier_iff (j : Nat) : (layoutEntry body j).position ∈ ((List.range j).map (layoutEntry body)).map LayoutEntry.position
    ↔ ∃ k, k < j ∧ (layoutEntry body k).position = (layoutEntry body j).position := by
  simp

theorem entriesFault_range {j count : Nat} (inside : j ≤ count) (before : ∀ k, k < j → EntryGood body k) :
    ∃ rest, (List.range count).map (layoutEntry body) = (List.range j).map (layoutEntry body) ++ rest
      ∧ (j < count → rest.head? = some (layoutEntry body j)) ∧ (j = count → rest = [])
      ∧ entriesFault [] ((List.range count).map (layoutEntry body))
        = entriesFault (((List.range j).map (layoutEntry body)).map LayoutEntry.position) rest := by
  obtain ⟨n, rfl⟩ := Nat.exists_eq_add_of_le inside
  have divides : (List.range (j + n)).map (layoutEntry body)
      = (List.range j).map (layoutEntry body) ++ ((List.range n).map (j + ·)).map (layoutEntry body) := by
    rw [List.range_add, List.map_append]
  refine ⟨_, divides, fun more => ?_, fun last => ?_, ?_⟩
  · have : 0 < n := by omega
    rw [List.head?_eq_getElem?]
    simp [this]
  · have : n = 0 := by omega
    subst this
    rfl
  · rw [divides]
    refine (entriesFault_reaches _ _ [] fun k h => ?_).trans rfl
    have small : k < j := by simpa using h
    obtain ⟨position, fresh, size⟩ := before k small
    rw [← mem_earlier_iff] at fresh
    have taken : ((List.range j).map (layoutEntry body)).take k = (List.range k).map (layoutEntry body) := by
      rw [← List.map_take, List.take_range, Nat.min_eq_left (Nat.le_of_lt small)]
    simp only [List.nil_append, taken, List.getElem_map, List.getElem_range]
    exact ⟨position, fresh, size⟩

theorem entriesFault_at {j count : Nat} (inside : j < count) (before : ∀ k, k < j → EntryGood body k) :
    (7 < (layoutEntry body j).position → entriesFault [] ((List.range count).map (layoutEntry body)) = some 2)
    ∧ ((layoutEntry body j).position ≤ 7 → (∃ k, k < j ∧ (layoutEntry body k).position = (layoutEntry body j).position) →
        entriesFault [] ((List.range count).map (layoutEntry body)) = some 3)
    ∧ ((layoutEntry body j).position ≤ 7 → (¬ ∃ k, k < j ∧ (layoutEntry body k).position = (layoutEntry body j).position) →
        (64 < (layoutEntry body j).outBytes ∨ 64 < (layoutEntry body j).inBytes) →
        entriesFault [] ((List.range count).map (layoutEntry body)) = some 4) := by
  obtain ⟨rest, -, head, -, reaches⟩ := entriesFault_range body (Nat.le_of_lt inside) before
  obtain ⟨more, rfl⟩ := List.head?_eq_some_iff.mp (head inside)
  rw [reaches, ← mem_earlier_iff]
  exact ⟨entriesFault_cons_position more, entriesFault_cons_repeated more, entriesFault_cons_large more⟩

theorem entriesFault_good {count : Nat} (good : ∀ j, j < count → EntryGood body j) :
    entriesFault [] ((List.range count).map (layoutEntry body)) = none := by
  obtain ⟨rest, -, -, last, reaches⟩ := entriesFault_range body (Nat.le_refl count) good
  rw [reaches, last rfl]
  rfl

/-! ### The checks of a LAYOUT body (R80) -/

variable (offset : Nat)

theorem layoutFault_count (many : 8 < byteAt body 4) : layoutFault offset body = some ⟨.layoutBad, 1⟩ := if_pos many

theorem layoutFault_short (few : byteAt body 4 ≤ 8) (short : body.length < 5 + 5 * byteAt body 4) :
    layoutFault offset body = some ⟨.blockShort, offset⟩ := (if_neg (Nat.not_lt.mpr few)).trans (if_pos short)

variable {body} (few : byteAt body 4 ≤ 8) (long : 5 + 5 * byteAt body 4 ≤ body.length)
include few long

theorem layoutFault_entry {cause : Nat} (faulty : entriesFault [] (layoutOf body).entries = some cause) :
    layoutFault offset body = some ⟨.layoutBad, cause⟩ := by
  simp only [layoutFault, if_neg (Nat.not_lt.mpr few), if_neg (Nat.not_lt.mpr long), faulty]

theorem layoutFault_totals (good : entriesFault [] (layoutOf body).entries = none) :
    (256 < (layoutOf body).outTotal → layoutFault offset body = some ⟨.layoutBad, 5⟩)
    ∧ ((layoutOf body).outTotal ≤ 256 → 256 < (layoutOf body).inTotal → layoutFault offset body = some ⟨.layoutBad, 6⟩)
    ∧ ((layoutOf body).outTotal ≤ 256 → (layoutOf body).inTotal ≤ 256 → layoutFault offset body = none) := by
  have checks : layoutFault offset body = if (layoutOf body).outTotal > 256 then some ⟨.layoutBad, 5⟩
      else if (layoutOf body).inTotal > 256 then some ⟨.layoutBad, 6⟩ else none := by
    simp only [layoutFault, if_neg (Nat.not_lt.mpr few), if_neg (Nat.not_lt.mpr long), good]
  rw [checks]
  exact ⟨fun large => if_pos large, fun out large => (if_neg (Nat.not_lt.mpr out)).trans (if_pos large),
    fun out small => (if_neg (Nat.not_lt.mpr out)).trans (if_neg (Nat.not_lt.mpr small))⟩

end

/-! ### O53 -/

/-- R83: the header half of the walk. -/
theorem walkHeader_checked (w : Walk) (bs : Bytes) :
    let h := headerOf bs
    let fails := fun (f : FaultKind) (detail : Nat) => walkHeader w bs = .failed { kind := f, detail := detail }
    let order := w.number = 1 ∧ h.kind ≠ 1
    let range := 252 < h.bodyLength ∨ 1024 < w.offset + 4 + h.bodyLength
    let seen := ∃ k, blockKind h.kind = some k ∧ k ∈ w.kinds
    let badNext := h.next ≠ 0 ∧ (h.next % 4 ≠ 0 ∨ 1024 ≤ h.next)
    let tooLong := h.next ≠ 0 ∧ w.number = 16
    let short := (1 ≤ h.kind ∧ h.kind ≤ 5) ∧ h.bodyLength < [0, 10, 4, 3, 5, 4].getD h.kind 0
    (order → fails .chainOrder h.kind)
    ∧ (¬ order → range → fails .chainRange w.offset)
    ∧ (¬ order → ¬ range → seen → fails .chainDup w.offset)
    ∧ (¬ order → ¬ range → ¬ seen → badNext → fails .chainRange h.next)
    ∧ (¬ order → ¬ range → ¬ seen → ¬ badNext → tooLong → fails .chainLong w.offset)
    ∧ (¬ order → ¬ range → ¬ seen → ¬ badNext → ¬ tooLong → short → fails .blockShort w.offset)
    ∧ (¬ order → ¬ range → ¬ seen → ¬ badNext → ¬ tooLong → ¬ short → headerFault w h = none) := by
  intro h fails order range seen badNext tooLong short
  refine ⟨fun o => walkHeader_fault (headerFault_order o), fun o r => walkHeader_fault (headerFault_range o r),
    fun o r d => walkHeader_fault (headerFault_seen o r d),
    fun o r d n => walkHeader_fault ((headerFault_past_seen o r d).trans (if_pos n)),
    fun o r d n l => walkHeader_fault ((headerFault_past_seen o r d).trans ((if_neg n).trans (if_pos l))),
    fun o r d n l b => walkHeader_fault ((headerFault_past_seen o r d).trans ((if_neg n).trans ((if_neg l).trans
      (if_pos ((any_short_iff _ _).mpr b))))),
    fun o r d n l b => (headerFault_past_seen o r d).trans ((if_neg n).trans ((if_neg l).trans
      (if_neg fun bad => b ((any_short_iff _ _).mp bad))))⟩

/-- Settles O53: the checks of a header in their order, and a body decoded by its kind. -/
theorem walkChecksEachHeader : Obligations.WalkChecksEachHeader := by
  unfold Obligations.WalkChecksEachHeader
  refine ⟨fun w b₀ b₁ b₂ b₃ stage => ?_, fun w h gathered bytes stage header => ?_⟩
  · rw [walkStep_header stage]
    obtain ⟨order, range, seen, badNext, tooLong, short, good⟩ := walkHeader_checked w [b₀, b₁, b₂, b₃]
    refine ⟨order, range, seen, badNext, tooLong, short, fun o r d n l b => ?_⟩
    have passes := good o r d n l b
    exact ⟨fun k known => walkHeader_known passes known,
      fun unknown => walkHeader_unknown passes (blockKind_eq_none unknown) ▸ nextBlock_goesOn w w.fields _⟩
  · rw [walkStep_body stage header]
    refine ⟨fun more => if_pos more, fun whole => ?_⟩
    have goesOn : ∀ {k g}, blockKind h.kind = some k → decodeBody w.offset k (gathered ++ bytes) w.fields = .ok g →
        w.GoesOn g h.next (walkBody w h gathered bytes) := fun {k g} known decoded =>
      walkBody_decoded whole known decoded ▸ nextBlock_goesOn w g h.next
    have layoutFails : ∀ {f}, h.kind = 4 → layoutFault w.offset (gathered ++ bytes) = some f →
        walkBody w h gathered bytes = .failed f := fun {f} kind faulty =>
      walkBody_failed whole (kind ▸ rfl) (decodeBody_layout_failed faulty)
    refine ⟨fun kind => goesOn (k := .ident) (kind ▸ rfl) rfl, fun kind => goesOn (k := .supply) (kind ▸ rfl) rfl,
      fun kind small => walkBody_failed whole (k := .link) (kind ▸ rfl) (if_pos small),
      fun kind enough code rate => goesOn (k := .link) (kind ▸ rfl) ?_, fun kind => ?_,
      fun kind => goesOn (k := .param) (kind ▸ rfl) rfl⟩
    · rw [← recordedRate_eq rate]
      exact if_neg (Nat.not_lt.mpr enough)
    · refine ⟨fun many => layoutFails kind (layoutFault_count _ _ many),
        fun few short => layoutFails kind (layoutFault_short _ _ few short), fun few long => ⟨fun j inside before => ?_, fun good => ?_⟩⟩
      · obtain ⟨position, repeated, large⟩ := entriesFault_at (gathered ++ bytes) inside before
        exact ⟨fun bad => layoutFails kind (layoutFault_entry _ few long (position bad)),
          fun fits bad => layoutFails kind (layoutFault_entry _ few long (repeated fits bad)),
          fun fits fresh bad => layoutFails kind (layoutFault_entry _ few long (large fits fresh bad))⟩
      · obtain ⟨out, inp, fits⟩ := layoutFault_totals w.offset few long (entriesFault_good _ good)
        exact ⟨fun bad => layoutFails kind (out bad), fun small bad => layoutFails kind (inp small bad),
          fun small fit => goesOn (k := .layout) (kind ▸ rfl) (decodeBody_layout_good (fits small fit))⟩

end Sys2Proof.Machine
end

section
/-! SUPPORT. Matching (R92, R101 to R112): the candidate, and the steps that judge it, one after the other. -/

namespace Sys2Proof.Machine

/-! ### The candidate (R92, R102) -/

section
variable {c : Identity} {r : ExpRecord}

theorem Identity.fits_iff (x : CardSpec) : c.fits x = true ↔ c.vendor = x.vendor ∧ c.cardType = x.cardType
    ∧ (x.minRev.major < c.revision.major ∨ (x.minRev.major = c.revision.major ∧ x.minRev.minor ≤ c.revision.minor))
    ∧ (c.revision.major < x.maxRev.major ∨ (c.revision.major = x.maxRev.major ∧ c.revision.minor ≤ x.maxRev.minor)) := by
  simp only [Identity.fits, Revision.le, Bool.and_eq_true, decide_eq_true_eq, and_assoc]

theorem candidate_exact (h : c.fits r.primary = true) : candidate c r = some .exact := if_pos h

theorem candidate_substitute {n : Nat} {x : CardSpec} (primary : ¬ c.fits r.primary = true) (there : r.substitutes[n]? = some x)
    (fits : c.fits x = true) (before : ∀ (m : Nat) (y : CardSpec), m < n → r.substitutes[m]? = some y → ¬ c.fits y = true) :
    candidate c r = some (.substitute n) := by
  obtain ⟨inside, rfl⟩ := List.getElem?_eq_some_iff.mp there
  have first : r.substitutes.findIdx? c.fits = some n :=
    List.findIdx?_eq_some_iff_getElem.mpr ⟨inside, fits, fun m h => before m _ h (List.getElem?_eq_getElem (by omega))⟩
  rw [candidate, if_neg primary, first]
  rfl

theorem candidate_none (primary : ¬ c.fits r.primary = true) (others : ∀ x ∈ r.substitutes, ¬ c.fits x = true) :
    candidate c r = none := by
  have absent : r.substitutes.findIdx? c.fits = none :=
    List.findIdx?_eq_none_iff.mpr fun x h => Bool.eq_false_iff.mpr (others x h)
  rw [candidate, if_neg primary, absent]
  rfl

/-! ### Sub-modules (R104) -/

theorem Identity.subAt_isNone (position : Nat) :
    (c.subAt position).isNone = !c.subs.any fun m => decide (m.position = position) := by
  rw [← Option.not_isSome, Identity.subAt, Bool.not_inj_iff, Bool.eq_iff_iff, List.find?_isSome, List.any_eq_true]

theorem subAccepted_mapped {e : ExpSub} {m : SubModule} (h : c.subAt e.position = some m) :
    subAccepted c e = true ↔ m.type = e.type ∧ m.outBytes = e.outBytes ∧ m.inBytes = e.inBytes := by
  simp only [subAccepted, h, decide_eq_true_eq]

theorem subAccepted_absent {e : ExpSub} (h : c.subAt e.position = none) : subAccepted c e = true ↔ e.required = false := by
  simp only [subAccepted, h, Bool.not_eq_true']

theorem absentSubs_eq (subs : List ExpSub) :
    absentSubs c subs = subs.filter fun e => !c.subs.any fun m => decide (m.position = e.position) :=
  List.filter_congr fun _ _ => Identity.subAt_isNone _

theorem subMismatch_none (h : ∀ e ∈ r.subs, subAccepted c e = true) : subMismatch c r = none := by
  rw [subMismatch, List.find?_eq_none.mpr fun e member => by simp [h e member]]
  rfl

section
variable {pre rest : List ExpSub} {e : ExpSub} (split : r.subs = pre ++ e :: rest) (before : ∀ b ∈ pre, subAccepted c b = true)
  (bad : ¬ subAccepted c e = true)
include split before bad

theorem subMismatch_first : subMismatch c r = some e.position := by
  have passes : pre.find? (fun b => !subAccepted c b) = none := List.find?_eq_none.mpr fun b h => by simp [before b h]
  rw [subMismatch, split, List.find?_append, passes, Option.none_or, List.find?_cons_of_pos (by simpa using bad)]
  rfl

theorem foundBySubs_first : foundBySubs c r = baseFills c r + (absentSubs c pre).length := by
  rw [foundBySubs, split, List.takeWhile_append_of_pos before, List.takeWhile_cons_of_neg bad, List.append_nil]

end

/-! ### The steps of matching, in order (R102 to R107) -/

variable (closed : SetIx → Bool) {k : Candidate}

theorem matchCard_identity (h : candidate c r = none) :
    matchCard closed c (some r) = mismatched .identity none none 0 := by
  simp only [matchCard, h]

/-- R103: the base bytes of a candidate are accepted in both directions. -/
def SizeAccepted (k : Candidate) (c : Identity) (r : ExpRecord) : Prop :=
  baseAccepted k c.baseOut r.baseOut = true ∧ baseAccepted k c.baseIn r.baseIn = true

theorem sizeRefused_iff :
    (!baseAccepted k c.baseOut r.baseOut || !baseAccepted k c.baseIn r.baseIn) = true ↔ ¬ SizeAccepted k c r := by
  rw [SizeAccepted, Bool.or_eq_true, Bool.not_eq_true', Bool.not_eq_true', ← Bool.not_eq_true, ← Bool.not_eq_true]
  exact Classical.not_and_iff_not_or_not.symm

theorem matchCard_size (h : candidate c r = some k) (size : ¬ SizeAccepted k c r) :
    matchCard closed c (some r) = mismatched .size k.index none (foundBySize k c r) := by
  simp only [matchCard, h, if_pos (sizeRefused_iff.mpr size)]

section
variable (h : candidate c r = some k) (size : SizeAccepted k c r)
include h size

theorem matchCard_submod {p : Nat} (sub : subMismatch c r = some p) :
    matchCard closed c (some r) = mismatched .submod k.index (some p) (foundBySubs c r) := by
  simp only [matchCard, h, if_neg fun refused => sizeRefused_iff.mp refused size, sub]

theorem matchCard_power (subs : subMismatch c r = none) (power : r.drawCap < c.runDraw) :
    matchCard closed c (some r) = mismatched .power k.index none (adaptations c r) := by
  simp only [matchCard, h, if_neg fun refused => sizeRefused_iff.mp refused size, subs]
  exact if_pos power

theorem matchCard_settles (subs : subMismatch c r = none) (power : c.runDraw ≤ r.drawCap) :
    matchCard closed c (some r) = settle closed k c r := by
  simp only [matchCard, h, if_neg fun refused => sizeRefused_iff.mp refused size, subs]
  exact if_neg (Nat.not_lt.mpr power)

end

theorem settle_unavailable {n : SetIx} (set : r.set = some n) (open_ : closed n = false) : settle closed k c r
    = .parked .setUnavailable { cls := matchClass k c r, sub := none, substitute := k.index } none (.unavailable n)
      (adaptations c r) := by
  simp only [settle, set, open_, Bool.false_eq_true, if_false]

theorem settle_forward (set : ∀ n, r.set = some n → closed n = true) : settle closed k c r
    = .forward { cls := matchClass k c r, sub := none, substitute := k.index } (layoutFor k c r) (chosenRate c r)
      (adaptations c r) := by
  cases named : r.set with
  | none => simp only [settle, named]
  | some n => simp only [settle, named, set n named, if_true]

theorem chosenRate_val : (chosenRate c r).val = min c.maxRate.val r.rateCap.val := by
  rw [chosenRate, Fin.coe_min]

end

/-! ### O54 -/

/-- R102: the candidate that an index, or none, names. -/
def Candidate.ofIndex : Option Nat → Candidate
  | none => .exact
  | some n => .substitute n

theorem Candidate.ofIndex_index (k : Option Nat) : (Candidate.ofIndex k).index = k := by cases k <;> rfl

theorem Candidate.ofIndex_exact (k : Option Nat) : Candidate.ofIndex k = .exact ↔ k = none := by cases k <;> simp [ofIndex]

theorem matchClass_ofIndex (k : Option Nat) (c : Identity) (r : ExpRecord) :
    matchClass (.ofIndex k) c r = if k = none ∧ adaptations c r = 0 then MatchClass.exact else .compatible := by
  simp only [matchClass, Candidate.ofIndex_exact]

theorem foundBySize_ofIndex (k : Option Nat) (c : Identity) (r : ExpRecord) :
    foundBySize (.ofIndex k) c r = if k = none then 0 else if c.baseOut < r.baseOut then 1 else 0 := by cases k <;> rfl

/-- Settles O54: the candidate first, then each step in its order. -/
theorem matchingJudgesTheCandidate : Obligations.MatchingJudgesTheCandidate := by
  unfold Obligations.MatchingJudgesTheCandidate
  intro closed c r fits chosen size met mismatch fill absent count
  have fits_iff : ∀ x, c.fits x = true ↔ fits x := c.fits_iff
  have met_iff : ∀ e, met e ↔ subAccepted c e = true := by
    intro e
    simp only [met]
    cases there : c.subAt e.position with
    | none =>
      rw [subAccepted_absent there]
      rw [Identity.subAt] at there
      simp only [there]
    | some m =>
      rw [subAccepted_mapped there]
      rw [Identity.subAt] at there
      simp only [there]
  have absent_eq : ∀ subs, (absentSubs c subs).length = absent subs := fun subs => congrArg List.length (absentSubs_eq subs)
  have count_eq : adaptations c r = count := by
    rw [adaptations, absent_eq]
    rfl
  refine ⟨fits_iff, rfl, fun primary others => ?_, fun k chosenk => ?_⟩
  · exact matchCard_identity closed (candidate_none (primary ∘ (fits_iff _).mp) fun x h => others x h ∘ (fits_iff _).mp)
  have candidate_eq : candidate c r = some (.ofIndex k) := by
    cases k with
    | none => exact candidate_exact ((fits_iff _).mpr chosenk)
    | some n =>
      obtain ⟨primary, ⟨x, there, good⟩, before⟩ := chosenk
      exact candidate_substitute (primary ∘ (fits_iff _).mp) there ((fits_iff _).mpr good)
        fun m y h at' => before m y h at' ∘ (fits_iff _).mp
  have size_iff : size k ↔ SizeAccepted (.ofIndex k) c r := by
    cases k with
    | none => exact (and_congr decide_eq_true_iff decide_eq_true_iff).symm
    | some n => exact (and_congr decide_eq_true_iff decide_eq_true_iff).symm
  have index := Candidate.ofIndex_index k
  refine ⟨fun large => ?_, fun fit pre e rest split before bad => ?_, fun fit all power => ?_, fun fit all power => ?_⟩
  · refine (matchCard_size closed candidate_eq (large ∘ size_iff.mpr)).trans ?_
    rw [index, foundBySize_ofIndex]
    rfl
  · have passed : ∀ b ∈ pre, subAccepted c b = true := fun b h => (met_iff b).mp (before b h)
    have failed : ¬ subAccepted c e = true := bad ∘ (met_iff e).mpr
    refine (matchCard_submod closed candidate_eq (size_iff.mp fit) (subMismatch_first split passed failed)).trans ?_
    rw [index, foundBySubs_first split passed failed, absent_eq]
    rfl
  · have subs := subMismatch_none fun e h => (met_iff e).mp (all e h)
    refine (matchCard_power closed candidate_eq (size_iff.mp fit) subs power).trans ?_
    rw [index, count_eq]
    rfl
  · have subs := subMismatch_none fun e h => (met_iff e).mp (all e h)
    have settles := matchCard_settles closed candidate_eq (size_iff.mp fit) subs power
    have cls_eq := matchClass_ofIndex k c r
    rw [count_eq] at cls_eq
    refine ⟨fun n set notClosed => ?_, fun set => ⟨layoutFor (.ofIndex k) c r, chosenRate c r, ?_, chosenRate_val, rfl, rfl, rfl, rfl,
      ?_, rfl, rfl⟩⟩
    · rw [settles, settle_unavailable closed set notClosed, index, count_eq, cls_eq]
    · rw [settles, settle_forward closed set, index, count_eq, cls_eq]
    · rw [← cls_eq]
      exact decide_eq_true_iff

end Sys2Proof.Machine
end

section
/-! SUPPORT. The adaptation tables (R109, R110): what a segment covers, on the card's side for outputs (R169) and on the window's side
for inputs (R171). -/

namespace Sys2Proof.Machine

/-! ### Segments of a table -/

section
variable (source : Bytes) (outLength offset : Nat) {o length k : Nat} (table : List Segment)

theorem outputByte_fill : outputByte source outLength offset (segment o length .fill ++ table) k
    = outputByte source outLength offset table k := by
  unfold segment
  by_cases empty : length = 0
  · rw [if_pos empty, List.nil_append]
  · rw [if_neg empty]
    rfl

theorem outputByte_covered {at' : Nat} (low : at' ≤ k) (high : k < at' + length) :
    outputByte source outLength offset (segment o length (.card at') ++ table) k
      = sourceByte source outLength (offset + o + (k - at')) := by
  rw [segment, if_neg (by omega)]
  exact if_pos ⟨low, high⟩

theorem outputByte_uncovered {at' : Nat} (outside : ¬ (at' ≤ k ∧ k < at' + length)) :
    outputByte source outLength offset (segment o length (.card at') ++ table) k = outputByte source outLength offset table k := by
  unfold segment
  by_cases empty : length = 0
  · rw [if_pos empty, List.nil_append]
  · rw [if_neg empty]
    exact if_neg outside

end

section
variable (inputs : Bytes) {o length k : Nat} (table : List Segment)

theorem segmentByte_card {at' : Nat} (low : o ≤ k) (high : k < o + length) :
    segmentByte (segment o length (.card at') ++ table) (some inputs) k = inputs.getD (at' + (k - o)) 0 := by
  rw [segment, if_neg (by omega)]
  exact if_pos ⟨low, high⟩

theorem segmentByte_fill (low : o ≤ k) (high : k < o + length) :
    segmentByte (segment o length .fill ++ table) (some inputs) k = 0 := by
  rw [segment, if_neg (by omega)]
  exact if_pos ⟨low, high⟩

theorem segmentByte_uncovered {at' : Source} (outside : ¬ (o ≤ k ∧ k < o + length)) :
    segmentByte (segment o length at' ++ table) (some inputs) k = segmentByte table (some inputs) k := by
  unfold segment
  by_cases empty : length = 0
  · rw [if_pos empty, List.nil_append]
  · rw [if_neg empty]
    exact if_neg outside

theorem segmentByte_none : segmentByte table none k = 0 := by
  induction table with
  | nil => rfl
  | cons g table ih =>
    rw [segmentByte]
    · by_cases covers : g.offset ≤ k ∧ k < g.offset + g.length
      · exact if_pos covers
      · exact (if_neg covers).trans ih
    · exact fun _ _ _ carried => nomatch carried

end

/-! ### The sub-modules of a card in position order (R89) -/

theorem placeSubs_apart (es : List LayoutEntry) : ∀ o i : Nat, (placeSubs o i es).Pairwise fun a b =>
    a.outOffset + a.outBytes ≤ b.outOffset ∧ a.inOffset + a.inBytes ≤ b.inOffset := by
  induction es with
  | nil => exact fun _ _ => List.Pairwise.nil
  | cons e es ih =>
    intro o i
    refine List.Pairwise.cons (fun m member => ?_) (ih _ _)
    obtain ⟨pre, rest, split⟩ := List.append_of_mem member
    obtain ⟨out, inp⟩ := placeSubs_offsets es _ _ pre m rest split
    rw [out, inp]
    exact ⟨Nat.le_add_right _ _, Nat.le_add_right _ _⟩

theorem subAt_mem {c : Identity} {position : Nat} {m : SubModule} (h : c.subAt position = some m) :
    m ∈ c.subs ∧ m.position = position := by
  rw [Identity.subAt] at h
  exact ⟨List.mem_of_find?_eq_some h, of_decide_eq_true (List.find?_some h :)⟩

section
variable {c : Identity} {entries : List LayoutEntry} (placed : c.subs = placeSubs c.baseOut c.baseIn entries)
include placed

theorem base_le_offset {m : SubModule} (member : m ∈ c.subs) : c.baseOut ≤ m.outOffset := by
  obtain ⟨pre, rest, split⟩ := List.append_of_mem (placed ▸ member)
  rw [(placeSubs_offsets entries _ _ pre m rest split).1]
  exact Nat.le_add_right _ _

theorem outputs_apart {m n : SubModule} (mem : m ∈ c.subs) (nem : n ∈ c.subs) (other : m.position ≠ n.position) :
    m.outOffset + m.outBytes ≤ n.outOffset ∨ n.outOffset + n.outBytes ≤ m.outOffset := by
  have apart : c.subs.Pairwise fun a b => a.outOffset + a.outBytes ≤ b.outOffset ∨ b.outOffset + b.outBytes ≤ a.outOffset :=
    placed ▸ (placeSubs_apart entries c.baseOut c.baseIn).imp fun h => Or.inl h.1
  have symmetric : Std.Symm fun a b : SubModule => a.outOffset + a.outBytes ≤ b.outOffset ∨ b.outOffset + b.outBytes ≤ a.outOffset :=
    ⟨fun _ _ => Or.symm⟩
  exact apart.forall mem nem fun same => other (congrArg SubModule.position same)

variable (ordered : (entries.map LayoutEntry.position).Pairwise (· < ·))
include ordered

theorem subAt_of_mem {m : SubModule} (member : m ∈ c.subs) : c.subAt m.position = some m := by
  have nodup : (c.subs.map SubModule.position).Nodup := by
    rw [placed, placeSubs_positions]
    exact ordered.imp Nat.ne_of_lt
  have found : (c.subAt m.position).isSome := List.find?_isSome.mpr ⟨m, member, decide_eq_true rfl⟩
  obtain ⟨n, there⟩ := Option.isSome_iff_exists.mp found
  obtain ⟨nem, same⟩ := subAt_mem there
  rw [there, List.inj_on_of_nodup_map nodup nem member same]

end

/-! ### The segments of the expected sub-modules (R109) -/

theorem subSegments_mapped {c : Identity} {bytes : ExpSub → Nat} {card : SubModule → Nat} {e : ExpSub} {m : SubModule}
    (h : c.subAt e.position = some m) (o : Nat) (es : List ExpSub) : subSegments c bytes card o (e :: es)
      = segment o (bytes e) (.card (card m)) ++ subSegments c bytes card (o + bytes e) es := by
  simp only [subSegments, h]

theorem subSegments_absent {c : Identity} {bytes : ExpSub → Nat} {card : SubModule → Nat} {e : ExpSub}
    (h : c.subAt e.position = none) (o : Nat) (es : List ExpSub) : subSegments c bytes card o (e :: es)
      = segment o (bytes e) .fill ++ subSegments c bytes card (o + bytes e) es := by
  simp only [subSegments, h]

section
variable {c : Identity} {bytes : ExpSub → Nat} {card : SubModule → Nat} (rest : List ExpSub)

/-- R169: past the entries whose sub-modules do not reach a card byte. -/
theorem outputByte_past (source : Bytes) (outLength offset k : Nat) : ∀ (pre : List ExpSub) (o : Nat),
    (∀ b ∈ pre, ∀ m, c.subAt b.position = some m → ¬ (card m ≤ k ∧ k < card m + bytes b)) →
    outputByte source outLength offset (subSegments c bytes card o (pre ++ rest)) k
      = outputByte source outLength offset (subSegments c bytes card (o + (pre.map bytes).sum) rest) k := by
  intro pre
  induction pre with
  | nil => exact fun _ _ => rfl
  | cons b pre ih =>
    intro o clear
    have later := ih (o + bytes b) fun d h => clear d (List.mem_cons_of_mem b h)
    rw [List.map_cons, List.sum_cons, ← Nat.add_assoc, ← later, List.cons_append]
    cases there : c.subAt b.position with
    | none => rw [subSegments_absent there, outputByte_fill]
    | some m => rw [subSegments_mapped there, outputByte_uncovered _ _ _ _ (clear b List.mem_cons_self m there)]

/-- R171: past the entries that stand before a window byte. -/
theorem segmentByte_past (inputs : Bytes) (k : Nat) : ∀ (pre : List ExpSub) (o : Nat), o + (pre.map bytes).sum ≤ k →
    segmentByte (subSegments c bytes card o (pre ++ rest)) (some inputs) k
      = segmentByte (subSegments c bytes card (o + (pre.map bytes).sum) rest) (some inputs) k := by
  intro pre
  induction pre with
  | nil => exact fun _ _ => rfl
  | cons b pre ih =>
    intro o before
    rw [List.map_cons, List.sum_cons] at before ⊢
    rw [← Nat.add_assoc, ← ih (o + bytes b) (by omega), List.cons_append]
    cases there : c.subAt b.position with
    | none => rw [subSegments_absent there, segmentByte_uncovered _ _ (by omega)]
    | some m => rw [subSegments_mapped there, segmentByte_uncovered _ _ (by omega)]

end

/-! ### The two tables -/

section
variable {c : Identity} {r : ExpRecord} (source : Bytes) (outLength offset : Nat) {k : Nat}

theorem outTable_base (h : k < c.baseOut) :
    outputByte source outLength offset (outTable c r) k = sourceByte source outLength (offset + k) := by
  rw [outTable, adaptationTable, List.append_assoc, outputByte_covered _ _ _ _ (Nat.zero_le k) (by omega)]
  rfl

theorem outTable_past_base (h : c.baseOut ≤ k) : outputByte source outLength offset (outTable c r) k
    = outputByte source outLength offset (subSegments c ExpSub.outBytes SubModule.outOffset r.baseOut r.subs) k := by
  rw [outTable, adaptationTable, List.append_assoc, outputByte_uncovered _ _ _ _ (by omega), outputByte_fill]

variable (inputs : Bytes)

theorem inTable_base (h : k < c.baseIn) : segmentByte (inTable c r) (some inputs) k = inputs.getD k 0 := by
  rw [inTable, adaptationTable, List.append_assoc, segmentByte_card _ _ (Nat.zero_le k) (by omega), Nat.sub_zero, Nat.zero_add]

theorem inTable_fill (low : c.baseIn ≤ k) (high : k < r.baseIn) : segmentByte (inTable c r) (some inputs) k = 0 := by
  rw [inTable, adaptationTable, List.append_assoc, segmentByte_uncovered _ _ (by omega), segmentByte_fill _ _ low (by omega)]

theorem inTable_past_base (base : c.baseIn ≤ r.baseIn) (h : r.baseIn ≤ k) : segmentByte (inTable c r) (some inputs) k
    = segmentByte (subSegments c ExpSub.inBytes SubModule.inOffset r.baseIn r.subs) (some inputs) k := by
  rw [inTable, adaptationTable, List.append_assoc, segmentByte_uncovered _ _ (by omega), segmentByte_uncovered _ _ (by omega)]

/-- R171: a byte of an expected entry's place in the window is found in that entry's segment. -/
theorem inTable_entry (base : c.baseIn ≤ r.baseIn) {pre rest : List ExpSub} {e : ExpSub} (split : r.subs = pre ++ e :: rest) :
    segmentByte (inTable c r) (some inputs) (r.baseIn + (pre.map ExpSub.inBytes).sum + k)
      = segmentByte (subSegments c ExpSub.inBytes SubModule.inOffset (r.baseIn + (pre.map ExpSub.inBytes).sum) (e :: rest))
          (some inputs) (r.baseIn + (pre.map ExpSub.inBytes).sum + k) := by
  rw [inTable_past_base inputs base (by omega), split, segmentByte_past _ inputs _ pre _ (by omega)]

end

/-! ### O55 -/

/-- Settles O55: base bytes by the base segment, each sub-module's bytes by its own segment, which no other covers. -/
theorem tablesMoveEachSubModule : Obligations.TablesMoveEachSubModule := by
  unfold Obligations.TablesMoveEachSubModule
  intro c r entries placed ordered expected outBase inBase agree
  have clear : ∀ {m : SubModule} {k : Nat}, m ∈ c.subs → k < m.outBytes → ∀ b ∈ r.subs, b.position ≠ m.position →
      ∀ n, c.subAt b.position = some n → ¬ (n.outOffset ≤ m.outOffset + k ∧ m.outOffset + k < n.outOffset + b.outBytes) := by
    intro m k member small b named other n there
    obtain ⟨nem, position⟩ := subAt_mem there
    have bytes := (agree b named n nem position).1
    have apart := outputs_apart placed member nem fun same => other (position.symm.trans same.symm)
    omega
  refine ⟨fun source outLength offset => ⟨fun k h => outTable_base _ _ _ h, fun pre e rest m k split member position small => ?_,
      fun m member k unnamed small => ?_⟩,
    fun inputs => ⟨fun k h => inTable_base inputs h, fun k low high => inTable_fill inputs low high,
      fun pre e rest k split small => ⟨fun m member position => ?_, fun unnamed => ?_⟩⟩,
    fun pre m rest split => placeSubs_offsets entries _ _ pre m rest (placed ▸ split), fun k => segmentByte_none _⟩
  · have named : e ∈ r.subs := by simp [split]
    have before : ∀ b ∈ pre, b.position ≠ m.position := by
      rw [split, List.map_append, List.pairwise_append] at expected
      exact fun b h => position ▸ Nat.ne_of_lt (expected.2.2 _ (List.mem_map_of_mem h) _ List.mem_cons_self)
    have bytes := (agree e named m member position).1
    rw [outTable_past_base _ _ _ (Nat.le_add_right_of_le (base_le_offset placed member)), split,
      outputByte_past _ _ _ _ _ pre _ fun b h => clear member small b (split ▸ List.mem_append_left _ h) (before b h),
      subSegments_mapped (position ▸ subAt_of_mem placed ordered member),
      outputByte_covered _ _ _ _ (by omega) (by omega), Nat.add_sub_cancel_left, sourceByte]
    simp only [Nat.add_assoc]
  · rw [outTable_past_base _ _ _ (Nat.le_add_right_of_le (base_le_offset placed member)), ← List.append_nil r.subs,
      outputByte_past _ _ _ _ _ r.subs _ fun b h => clear member small b h (unnamed b h)]
    rfl
  · rw [inTable_entry inputs inBase split, subSegments_mapped (position ▸ subAt_of_mem placed ordered member),
      segmentByte_card _ _ (by omega) (by omega), Nat.add_sub_cancel_left]
  · have absent : c.subAt e.position = none := List.find?_eq_none.mpr fun m h => by simpa using unnamed m h
    rw [inTable_entry inputs inBase split, subSegments_absent absent, segmentByte_fill _ _ (by omega) (by omega)]

end Sys2Proof.Machine
end

section
/-! SUPPORT. The EXP_LOAD layout of a record (R95, R202): where its bytes stand, and that they are read back as the record. -/

namespace Sys2Proof.Machine

/-! ### Numbers read back from their bytes (R196) -/

section
variable {p : Bytes} {o n : Nat}

theorem byteAt_of_enc8 (small : n < 256) (h : byteAt p o = byteAt (enc8 n) 0) : byteAt p o = n :=
  h.trans (Nat.mod_eq_of_lt small)

theorem numAt16_of_enc16 (small : n < 65536) (high : byteAt p o = byteAt (enc16 n) 0) (low : byteAt p (o + 1) = byteAt (enc16 n) 1) :
    numAt16 p o = n := by
  rw [numAt16, high, low]
  exact numAt16_enc16 [] small

/-- The bytes of a chunk of fixed width among others of its kind. -/
theorem byteAt_chunk {α : Type} {f : α → Bytes} {w : Nat} (rest : Bytes) : ∀ (l : List α), (∀ a ∈ l, (f a).length = w) →
    ∀ (k : Nat) (h : k < l.length) (j : Nat), j < w → byteAt ((l.map f).flatten ++ rest) (w * k + j) = byteAt (f l[k]) j := by
  intro l
  induction l with
  | nil => exact fun _ k h => absurd h (Nat.not_lt_zero k)
  | cons a l ih =>
    intro widths k h j inside
    have width : (f a).length = w := widths a List.mem_cons_self
    rw [List.map_cons, List.flatten_cons, List.append_assoc]
    cases k with
    | zero => 
      rw [Nat.mul_zero, Nat.zero_add, byteAt_append_left _ (by omega)]
      rfl
    | succ k =>
      have past := byteAt_append_right (f a) ((l.map f).flatten ++ rest) (w * k + j)
      rw [width] at past
      rw [show w * (k + 1) + j = w + (w * k + j) by ring, past]
      exact ih (fun b m => widths b (List.mem_cons_of_mem a m)) k (Nat.lt_of_succ_lt_succ h) j inside

theorem length_chunks {α : Type} {f : α → Bytes} {w : Nat} (l : List α) (widths : ∀ a ∈ l, (f a).length = w) :
    ((l.map f).flatten).length = w * l.length := by
  induction l with
  | nil => rfl
  | cons a l ih =>
    rw [List.map_cons, List.flatten_cons, List.length_append, widths a List.mem_cons_self,
      ih fun b m => widths b (List.mem_cons_of_mem a m), List.length_cons]
    ring

/-! ### Identities and sub-module entries -/

theorem loadCard_of_bytes {x : CardSpec} (good : x.InRange) (h : ∀ j, j < 8 → byteAt p (o + j) = byteAt x.bytes j) :
    loadCard p o = x := by
  obtain ⟨vendor, type, minMajor, minMinor, maxMajor, maxMinor, -⟩ := good
  have vendor' : numAt16 p o = x.vendor := numAt16_of_enc16 vendor (h 0 (by decide)) (h 1 (by decide))
  have type' : numAt16 p (o + 2) = x.cardType := numAt16_of_enc16 type (h 2 (by decide)) (h 3 (by decide))
  have minMajor' : byteAt p (o + 4) = x.minRev.major := byteAt_of_enc8 minMajor (h 4 (by decide))
  have minMinor' : byteAt p (o + 5) = x.minRev.minor := byteAt_of_enc8 minMinor (h 5 (by decide))
  have maxMajor' : byteAt p (o + 6) = x.maxRev.major := byteAt_of_enc8 maxMajor (h 6 (by decide))
  have maxMinor' : byteAt p (o + 7) = x.maxRev.minor := byteAt_of_enc8 maxMinor (h 7 (by decide))
  rw [loadCard, vendor', type', minMajor', minMinor', maxMajor', maxMinor']

theorem CardSpec.InRange.ordered {x : CardSpec} (good : x.InRange) : x.ordered = true := decide_eq_true good.2.2.2.2.2.2

/-- R95: the numbers of a sub-module entry fit their fields. -/
def ExpSub.Fits (e : ExpSub) : Prop := e.position ≤ 7 ∧ e.type < 65536 ∧ e.outBytes ≤ 64 ∧ e.inBytes ≤ 64

theorem byteAt_requirement {e : ExpSub} (h : byteAt p o = byteAt e.bytes 5) : byteAt p o = if e.required then 0 else 1 := by
  rw [h]
  show byteAt (enc8 (if e.required then 0 else 1)) 0 = _
  cases e.required <;> rfl

theorem loadSub_of_bytes {e : ExpSub} (fits : e.Fits) (h : ∀ j, j < 6 → byteAt p (o + j) = byteAt e.bytes j) :
    loadSub p o = e := by
  obtain ⟨position, type, outBytes, inBytes⟩ := fits
  have position' : byteAt p o = e.position := byteAt_of_enc8 (by omega) (h 0 (by decide))
  have type' : numAt16 p (o + 1) = e.type := numAt16_of_enc16 type (h 1 (by decide)) (h 2 (by decide))
  have outBytes' : byteAt p (o + 3) = e.outBytes := byteAt_of_enc8 (by omega) (h 3 (by decide))
  have inBytes' : byteAt p (o + 4) = e.inBytes := byteAt_of_enc8 (by omega) (h 4 (by decide))
  have required : decide (byteAt p (o + 5) = 0) = e.required := by
    rw [byteAt_requirement (h 5 (by decide))]
    cases e.required <;> rfl
  rw [loadSub, position', type', outBytes', inBytes', required]

end

/-! ### The three fixed parts of the layout -/

/-- R202: the bytes before the substitute list. -/
def ExpRecord.headBytes (r : ExpRecord) : Bytes := enc8 (encFlag r.enabled) ++ r.primary.bytes ++ enc8 r.substitutes.length

/-- R202: the bytes between the two lists. -/
def ExpRecord.baseBytes (r : ExpRecord) : Bytes := enc16 r.baseOut ++ enc16 r.baseIn ++ enc8 r.subs.length

/-- R202: the bytes past the sub-module list. -/
def ExpRecord.tailBytes (r : ExpRecord) : Bytes :=
  encOpt8 (r.set.map Fin.val) ++ enc16 r.outOffset ++ enc16 r.inOffset ++ enc8 r.rateCap.val ++ enc16 r.drawCap
    ++ enc8 r.priority.code ++ enc8 r.admitMode.code ++ enc8 r.fill.code ++ enc8 (encFlag r.recover)

theorem ExpRecord.bytes_eq (r : ExpRecord) : r.bytes = r.headBytes ++ ((r.substitutes.map CardSpec.bytes).flatten
    ++ (r.baseBytes ++ ((r.subs.map ExpSub.bytes).flatten ++ r.tailBytes))) := by
  simp only [ExpRecord.bytes, headBytes, baseBytes, tailBytes, List.append_assoc]

theorem length_cards (r : ExpRecord) : ((r.substitutes.map CardSpec.bytes).flatten).length = 8 * r.substitutes.length :=
  length_chunks _ fun _ _ => rfl

theorem length_subs (r : ExpRecord) : ((r.subs.map ExpSub.bytes).flatten).length = 6 * r.subs.length :=
  length_chunks _ fun _ _ => rfl

theorem ExpRecord.bytes_length (r : ExpRecord) : r.bytes.length = 27 + 8 * r.substitutes.length + 6 * r.subs.length := by
  have head : r.headBytes.length = 10 := rfl
  have base : r.baseBytes.length = 5 := rfl
  have tail : r.tailBytes.length = 12 := rfl
  rw [r.bytes_eq]
  simp only [List.length_append, length_cards, length_subs, head, base, tail]
  omega

section
variable (r : ExpRecord)

theorem byteAt_head {j : Nat} (h : j < 10) : byteAt r.bytes j = byteAt r.headBytes j := by
  rw [r.bytes_eq]
  exact byteAt_append_left _ h

theorem byteAt_card {k : Nat} (h : k < r.substitutes.length) {j : Nat} (inside : j < 8) :
    byteAt r.bytes (10 + 8 * k + j) = byteAt r.substitutes[k].bytes j := by
  rw [r.bytes_eq, Nat.add_assoc]
  exact (byteAt_append_right r.headBytes _ _).trans (byteAt_chunk (w := 8) _ _ (fun _ _ => rfl) k h j inside)

theorem byteAt_base {j : Nat} (h : j < 5) : byteAt r.bytes (10 + 8 * r.substitutes.length + j) = byteAt r.baseBytes j := by
  rw [r.bytes_eq, Nat.add_assoc, ← length_cards]
  exact (byteAt_append_right r.headBytes _ _).trans ((byteAt_append_right _ _ _).trans (byteAt_append_left _ h))

/-- The bytes from the sub-module list on. -/
theorem byteAt_past_base (j : Nat) : byteAt r.bytes (10 + 8 * r.substitutes.length + 5 + j)
    = byteAt ((r.subs.map ExpSub.bytes).flatten ++ r.tailBytes) j := by
  rw [r.bytes_eq, Nat.add_assoc, Nat.add_assoc, ← length_cards]
  exact (byteAt_append_right r.headBytes _ _).trans ((byteAt_append_right _ _ _).trans (byteAt_append_right r.baseBytes _ _))

theorem byteAt_sub {k : Nat} (h : k < r.subs.length) {j : Nat} (inside : j < 6) :
    byteAt r.bytes (10 + 8 * r.substitutes.length + 5 + 6 * k + j) = byteAt r.subs[k].bytes j := by
  rw [Nat.add_assoc, byteAt_past_base]
  exact byteAt_chunk (w := 6) _ _ (fun _ _ => rfl) k h j inside

theorem byteAt_tail (j : Nat) : byteAt r.bytes (10 + 8 * r.substitutes.length + 5 + 6 * r.subs.length + j) = byteAt r.tailBytes j := by
  rw [Nat.add_assoc, byteAt_past_base, ← length_subs]
  exact byteAt_append_right _ _ j

end

/-! ### The fields read back -/

theorem encFlag_lt (b : Bool) : encFlag b < 256 := by cases b <;> decide

theorem decide_encFlag (b : Bool) : decide (encFlag b = 1) = b := by cases b <;> rfl

theorem loadEnabled_bytes (r : ExpRecord) : byteAt r.bytes 0 = encFlag r.enabled :=
  byteAt_of_enc8 (encFlag_lt _) (byteAt_head r (by decide))

section
variable {r : ExpRecord} (good : r.InRange)
include good

theorem loadSubstitutes_bytes : loadSubstitutes r.bytes = r.substitutes.length :=
  byteAt_of_enc8 (Nat.lt_of_le_of_lt good.substitutes.1 (by decide)) (byteAt_head r (by decide))

theorem loadBaseAt_bytes : loadBaseAt r.bytes = 10 + 8 * r.substitutes.length := by
  rw [loadBaseAt, loadSubstitutes_bytes good]

theorem loadSubs_bytes : loadSubs r.bytes = r.subs.length := by
  rw [loadSubs, loadBaseAt_bytes good]
  exact byteAt_of_enc8 (Nat.lt_of_le_of_lt good.subs (by decide)) (byteAt_base r (by decide))

theorem loadTailAt_bytes : loadTailAt r.bytes = 10 + 8 * r.substitutes.length + 5 + 6 * r.subs.length := by
  rw [loadTailAt, loadBaseAt_bytes good, loadSubs_bytes good]

theorem loadPrimary_bytes : loadCard r.bytes 1 = r.primary :=
  loadCard_of_bytes good.primary fun j h => by
    rw [byteAt_head r (by omega)]
    exact (byteAt_append_left _ (by change 1 + j < 9; omega)).trans (byteAt_append_right (enc8 (encFlag r.enabled)) _ j)

theorem loadCards_bytes : loadCards r.bytes = r.substitutes := by
  refine List.ext_getElem (by simp [loadCards, loadSubstitutes_bytes good]) fun k h h' => ?_
  simp only [loadCards, List.getElem_map, List.getElem_range]
  exact loadCard_of_bytes (good.substitutes.2 _ (List.getElem_mem h')) fun j inside => byteAt_card r h' inside

theorem loadBaseOut_bytes : numAt16 r.bytes (loadBaseAt r.bytes) = r.baseOut := by
  rw [loadBaseAt_bytes good]
  exact numAt16_of_enc16 (Nat.lt_of_le_of_lt good.bases.1 (by decide)) (byteAt_base r (j := 0) (by decide)) (byteAt_base r (by decide))

theorem loadBaseIn_bytes : numAt16 r.bytes (loadBaseAt r.bytes + 2) = r.baseIn := by
  rw [loadBaseAt_bytes good]
  exact numAt16_of_enc16 (Nat.lt_of_le_of_lt good.bases.2 (by decide)) (byteAt_base r (by decide)) (byteAt_base r (j := 3) (by decide))

theorem loadSub_bytes {k : Nat} (h : k < r.subs.length) :
    loadSub r.bytes (loadBaseAt r.bytes + 5 + 6 * k) = r.subs[k] := by
  have fits : r.subs[k].Fits := good.entries _ (List.getElem_mem h)
  rw [loadBaseAt_bytes good]
  exact loadSub_of_bytes fits fun j inside => byteAt_sub r h inside

theorem loadEntries_bytes : loadEntries r.bytes = r.subs := by
  have length : (loadEntries r.bytes).length = r.subs.length := by simp [loadEntries, loadSubs_bytes good]
  refine List.ext_getElem length fun k h h' => ?_
  rw [← loadSub_bytes good h']
  simp only [loadEntries, List.getElem_map, List.getElem_range]

theorem loadRequirements_bytes : ∀ c ∈ loadRequirements r.bytes, c ≤ 1 := by
  intro c member
  obtain ⟨k, inside, rfl⟩ := List.mem_map.mp member
  rw [List.mem_range, loadSubs_bytes good] at inside
  rw [loadBaseAt_bytes good, byteAt_requirement (byteAt_sub r inside (by decide))]
  cases r.subs[k].required <;> decide

theorem loadOutLength_bytes : loadOutLength r.bytes = r.baseOut + (r.subs.map ExpSub.outBytes).sum := by
  rw [loadOutLength, loadBaseOut_bytes good, loadEntries_bytes good]

theorem loadInLength_bytes : loadInLength r.bytes = r.baseIn + (r.subs.map ExpSub.inBytes).sum := by
  rw [loadInLength, loadBaseIn_bytes good, loadEntries_bytes good]

theorem loadSet_bytes : byteAt r.bytes (loadTailAt r.bytes) = (r.set.map Fin.val).getD 255 := by
  rw [loadTailAt_bytes good]
  refine byteAt_of_enc8 ?_ (byteAt_tail r 0)
  cases r.set with
  | none => decide
  | some n => exact Nat.lt_trans n.isLt (by decide)

theorem loadOutOffset_bytes : loadOutOffset r.bytes = r.outOffset := by
  have := good.offsets
  rw [loadOutOffset, loadTailAt_bytes good]
  exact numAt16_of_enc16 (by omega) (byteAt_tail r 1) (byteAt_tail r 2)

theorem loadInOffset_bytes : loadInOffset r.bytes = r.inOffset := by
  have := good.offsets
  rw [loadInOffset, loadTailAt_bytes good]
  exact numAt16_of_enc16 (by omega) (byteAt_tail r 3) (byteAt_tail r 4)

theorem loadRateCap_bytes : byteAt r.bytes (loadTailAt r.bytes + 5) = r.rateCap.val := by
  rw [loadTailAt_bytes good]
  exact byteAt_of_enc8 (Nat.lt_trans r.rateCap.isLt (by decide)) (byteAt_tail r 5)

theorem loadDrawCap_bytes : numAt16 r.bytes (loadTailAt r.bytes + 6) = r.drawCap := by
  rw [loadTailAt_bytes good]
  exact numAt16_of_enc16 (Nat.lt_of_le_of_lt good.draw (by decide)) (byteAt_tail r 6) (byteAt_tail r 7)

theorem loadPriority_bytes : byteAt r.bytes (loadTailAt r.bytes + 8) = r.priority.code := by
  rw [loadTailAt_bytes good]
  exact byteAt_of_enc8 (by cases r.priority <;> decide) (byteAt_tail r 8)

theorem loadAdmitMode_bytes : byteAt r.bytes (loadTailAt r.bytes + 9) = r.admitMode.code := by
  rw [loadTailAt_bytes good]
  exact byteAt_of_enc8 (by cases r.admitMode <;> decide) (byteAt_tail r 9)

theorem loadFill_bytes : byteAt r.bytes (loadTailAt r.bytes + 10) = r.fill.code := by
  rw [loadTailAt_bytes good]
  exact byteAt_of_enc8 (by cases r.fill <;> decide) (byteAt_tail r 10)

theorem loadRecover_bytes : byteAt r.bytes (loadTailAt r.bytes + 11) = encFlag r.recover := by
  rw [loadTailAt_bytes good]
  exact byteAt_of_enc8 (encFlag_lt _) (byteAt_tail r 11)

/-! ### O56 -/

theorem sortBy_subs : sortBy ExpSub.position r.subs = r.subs := by
  rw [sortBy_eq_insertionSort]
  exact List.Pairwise.insertionSort_eq ((List.pairwise_map.mp good.positions).imp Nat.le_of_lt)

theorem loadRecord_bytes : loadRecord r.bytes = r := by
  have set : (if (r.set.map Fin.val).getD 255 = 255 then none else some (Fin.ofNat 64 ((r.set.map Fin.val).getD 255))) = r.set := by
    cases r.set with
    | none => rfl
    | some n =>
      have small : n.val ≠ 255 := by omega
      exact (if_neg small).trans (congrArg some (Fin.ext (Nat.mod_eq_of_lt n.isLt)))
  have rate : Fin.ofNat 4 r.rateCap.val = r.rateCap := Fin.ext (Nat.mod_eq_of_lt r.rateCap.isLt)
  have priority : (if r.priority.code = 1 then Priority.high else .normal) = r.priority := by cases r.priority <;> rfl
  have mode : (if r.admitMode.code = 1 then AdmitMode.onRelease else .auto) = r.admitMode := by cases r.admitMode <;> rfl
  have fill : (if r.fill.code = 1 then FillPolicy.hold else .zero) = r.fill := by cases r.fill <;> rfl
  rw [loadRecord, loadEnabled_bytes, loadPrimary_bytes good, loadCards_bytes good, loadBaseOut_bytes good, loadBaseIn_bytes good,
    loadEntries_bytes good, sortBy_subs good, loadSet_bytes good, loadOutOffset_bytes good, loadInOffset_bytes good,
    loadRateCap_bytes good, loadDrawCap_bytes good, loadPriority_bytes good, loadAdmitMode_bytes good, loadFill_bytes good,
    loadRecover_bytes good, set, rate, priority, mode, fill, decide_encFlag, decide_encFlag]

/-- R95: no field of the sub-module list is out of range. -/
theorem loadOutOfRange_subs_bytes : loadOutOfRange r.bytes 5 = false := by
  have positions : (r.subs.map ExpSub.position).Nodup := good.positions.imp Nat.ne_of_lt
  have := good.lengths
  rw [loadOutOfRange, loadSubs_bytes good, loadEntries_bytes good, loadOutLength_bytes good, loadInLength_bytes good]
  simp only [Bool.or_eq_false_iff, decide_eq_false_iff_not, List.any_eq_false, decide_eq_true_eq, Bool.not_eq_false', positions,
    decide_true, and_true]
  refine ⟨⟨⟨⟨Nat.not_lt.mpr good.subs, fun e h => ?_⟩, fun c h => Nat.not_lt.mpr (loadRequirements_bytes good c h)⟩,
    fun e h => ?_⟩, by omega⟩
  · exact Nat.not_lt.mpr (good.entries e h).1
  · obtain ⟨-, -, out, inp⟩ := good.entries e h
    omega

theorem loadOutOfRange_bytes (k : Nat) : loadOutOfRange r.bytes k = false := by
  have lengths := good.offsets
  have longest : Config.imageMax = 1440 := rfl
  have ordered : ∀ x : CardSpec, x.InRange → (!x.ordered) = false := fun x h => by rw [h.ordered]; rfl
  match k with
  | 0 =>
    rw [loadOutOfRange, loadEnabled_bytes]
    cases r.enabled <;> rfl
  | 1 =>
    rw [loadOutOfRange, loadPrimary_bytes good]
    exact ordered _ good.primary
  | 2 =>
    rw [loadOutOfRange, loadSubstitutes_bytes good, loadCards_bytes good, Bool.or_eq_false_iff, decide_eq_false_iff_not]
    exact ⟨Nat.not_lt.mpr good.substitutes.1, List.any_eq_false.mpr fun x h => Bool.eq_false_iff.mp (ordered x (good.substitutes.2 x h))⟩
  | 3 =>
    rw [loadOutOfRange, loadBaseOut_bytes good]
    exact decide_eq_false (Nat.not_lt.mpr good.bases.1)
  | 4 =>
    rw [loadOutOfRange, loadBaseIn_bytes good]
    exact decide_eq_false (Nat.not_lt.mpr good.bases.2)
  | 5 => exact loadOutOfRange_subs_bytes good
  | 6 =>
    rw [loadOutOfRange, loadSet_bytes good]
    refine decide_eq_false ?_
    cases r.set with
    | none => exact fun h => h.2 rfl
    | some n => exact fun h => absurd n.isLt (Nat.not_lt.mpr h.1)
  | 7 =>
    rw [loadOutOfRange, loadOutOffset_bytes good, loadOutLength_bytes good]
    exact decide_eq_false (by omega)
  | 8 =>
    rw [loadOutOfRange, loadInOffset_bytes good, loadInLength_bytes good]
    exact decide_eq_false (by omega)
  | 9 =>
    rw [loadOutOfRange, loadRateCap_bytes good]
    exact decide_eq_false (by omega)
  | 10 =>
    rw [loadOutOfRange, loadDrawCap_bytes good]
    exact decide_eq_false (Nat.not_lt.mpr good.draw)
  | 11 =>
    rw [loadOutOfRange, loadPriority_bytes good]
    cases r.priority <;> rfl
  | 12 =>
    rw [loadOutOfRange, loadAdmitMode_bytes good]
    cases r.admitMode <;> rfl
  | 13 =>
    rw [loadOutOfRange, loadFill_bytes good]
    cases r.fill <;> rfl
  | 14 =>
    rw [loadOutOfRange, loadRecover_bytes good]
    cases r.recover <;> rfl
  | n + 15 => rfl

end

/-- Settles O56: every field stands where the two counts place it. -/
theorem recordsReadBackAsSent : Obligations.RecordsReadBackAsSent := by
  unfold Obligations.RecordsReadBackAsSent
  intro r good
  have substitutes := good.substitutes.1
  have subs := good.subs
  refine ⟨loadRecord_bytes good, ?_, by rw [r.bytes_length]; omega, loadOutOfRange_bytes good⟩
  have implied : r.bytes.length = loadImpliedLength r.bytes := by
    rw [loadImpliedLength, loadSubstitutes_bytes good, loadSubs_bytes good, r.bytes_length]
  refine implied.trans ?_
  rw [loadImpliedLength, loadSubs, loadBaseAt, loadSubstitutes, Nat.add_right_comm 10 _ 4]

end Sys2Proof.Machine
end

section
/-! SUPPORT. What an event elsewhere leaves of a slot (R47 to R49): the slot and its queue entries, but for a grant of such an entry; and
slots that act one after another, seen from one of them. -/

namespace Sys2Proof.Machine

/-! ### A slot that stands, or is granted -/

/-- R49: a slot after the grant of an entry of the stage given. -/
def Slot.granted : Stage → Slot → Slot
  | .standby, x => { x with
      ctx := { x.ctx with state := .standbyInrush, reason := none, heldDraw := 150 }
      power := { x.power with switchOn := true, goodSeen := false, minimumTimer := some 20000000, deadlineTimer := some 50000000 } }
  | .run, x => { x with
      ctx := { x.ctx with state := .runInrush, reason := none, heldDraw := x.ctx.runDraw }
      link := x.link.asks .enableRun }

/-- Slot `i` and its queue entries stand, or one of these has been granted. -/
def Elsewhere (i : SlotIx) (s t : State) : Prop :=
  (t.slot i = s.slot i ∧ entriesIn t.power.queue i = entriesIn s.power.queue i)
  ∨ ∃ e ∈ entriesIn s.power.queue i, t.slot i = (s.slot i).granted e.1 ∧ entriesIn t.power.queue i = []

section
variable {i j : SlotIx} {s t u : State}

theorem Elsewhere.refl (i : SlotIx) (s : State) : Elsewhere i s s := .inl ⟨rfl, rfl⟩

theorem Elsewhere.of_same (slot : t.slot i = s.slot i) (rack : t.power = s.power) : Elsewhere i s t :=
  .inl ⟨slot, by rw [rack]⟩

theorem Elsewhere.trans (a : Elsewhere i s t) (b : Elsewhere i t u) : Elsewhere i s u := by
  rcases a with ⟨slot, entries⟩ | ⟨e, he, slot, none⟩
  · rcases b with ⟨slot', entries'⟩ | ⟨e, he, slot', none⟩
    · exact .inl ⟨slot'.trans slot, entries'.trans entries⟩
    · exact .inr ⟨e, entries ▸ he, slot'.trans (by rw [slot]), none⟩
  · rcases b with ⟨slot', entries'⟩ | ⟨e', he', -⟩
    · exact .inr ⟨e, he, slot'.trans slot, entries'.trans none⟩
    · exact absurd (none ▸ he') List.not_mem_nil

/-- A slot without an entry stands. -/
theorem Elsewhere.stands (h : Elsewhere i s t) (none : entriesIn s.power.queue i = []) :
    t.slot i = s.slot i ∧ entriesIn t.power.queue i = [] := by
  rcases h with ⟨slot, entries⟩ | ⟨e, he, -⟩
  · exact ⟨slot, entries.trans none⟩
  · exact absurd (none ▸ he) List.not_mem_nil

theorem Elsewhere.slot_or_entry (h : Elsewhere i s t) : t.slot i = s.slot i ∨ ∃ e ∈ s.power.queue, e.slot = i := by
  refine h.imp And.left fun ⟨e, he, _⟩ => ?_
  obtain ⟨b, hb, -⟩ := List.mem_map.mp he
  exact ⟨b, (List.mem_filter.mp hb).1, of_decide_eq_true (List.mem_filter.mp hb).2⟩

theorem Touches.elsewhere (h : Touches j s t) (other : i ≠ j) : Elsewhere i s t := .inl ⟨h.others i other, h.entries i other⟩

theorem Neutral.elsewhere (h : Neutral j s t) (other : i ≠ j) : Elsewhere i s t := h.touches.elsewhere other

theorem entriesIn_nil {q : List PowerEntry} (h : ∀ e ∈ q, e.slot ≠ i) : entriesIn q i = [] := by
  rw [entriesIn, List.filter_eq_nil_iff.mpr fun e he => by simpa using h e he]
  rfl

end

/-! ### Passes -/

section
variable {i j : SlotIx} {s : State}

theorem grant_slot (e : PowerEntry) (s : State) : (grant e s).slot e.slot = (s.slot e.slot).granted e.stage := by
  cases stage : e.stage with
  | standby =>
    rw [grant_standby_eq s stage]
    exact slot_setSlot_same _ _ _
  | run =>
    rw [grant_run_eq s stage]
    exact slot_setSlot_same _ _ _

theorem grant_elsewhere {e : PowerEntry} (listed : (e.stage, e.increase) ∈ entriesIn s.power.queue e.slot) :
    Elsewhere i s (grant e s) := by
  by_cases own : i = e.slot
  · subst own
    refine .inr ⟨_, listed, grant_slot e s, ?_⟩
    rw [grant_power]
    exact entriesIn_filter_same _ _
  · refine .inl ⟨grant_slot_ne e s own, ?_⟩
    rw [grant_power]
    exact entriesIn_filter_ne _ own

theorem examine_elsewhere (l : List PowerEntry) : ∀ {s : State}, (∀ e ∈ l, (e.stage, e.increase) ∈ entriesIn s.power.queue e.slot) →
    Elsewhere i s (examine l s) := by
  induction l with
  | nil => exact fun _ => .refl i _
  | cons e l ih =>
    intro s listed
    unfold examine
    split
    · exact grant_elsewhere (listed e List.mem_cons_self)
    · obtain ⟨q, rack, entries⟩ := passOver_power e s
      have passed : ∀ j, entriesIn (passOver e s).power.queue j = entriesIn s.power.queue j := fun j => by rw [rack]; exact entries j
      have here : Elsewhere i s (passOver e s) := .inl ⟨passOver_slot e s i, passed i⟩
      exact here.trans (ih fun b hb => by rw [passed]; exact listed b (List.mem_cons_of_mem e hb))

theorem pass_elsewhere (i : SlotIx) (s : State) : Elsewhere i s (pass s) := by
  unfold pass
  split
  · exact .refl i s
  · exact examine_elsewhere _ fun e he => mem_entriesIn (mem_queueOrder he)

theorem besidePass_elsewhere {due : Bool} {report : State → State} (h : ∀ t, Elsewhere i t (report t)) :
    Elsewhere i s (besidePass due report s) := by
  have choice : Elsewhere i s { s with choices := s.choices + 1 } := .of_same rfl rfl
  unfold besidePass eitherOrder
  dsimp only
  split
  · split
    · exact choice.trans ((pass_elsewhere i _).trans (h _))
    · exact choice.trans ((h _).trans (pass_elsewhere i _))
  · exact h s

/-- R5, R47: switch-off with releases at another slot, whose windows are not ARMED. -/
theorem withReleases_elsewhere {finish : State → State} (other : i ≠ j) (unarmed : (s.map j).input.isArmed = false)
    (finishes : ∀ t, Elsewhere i t (finish t)) : Elsewhere i s (withReleases j finish s) := by
  unfold withReleases
  rw [unarmed]
  exact ((releases_touches j s).elsewhere other).trans (besidePass_elsewhere finishes)

theorem holdPointOne_elsewhere (other : i ≠ j) : Elsewhere i s (holdPointOne j s) := by
  unfold holdPointOne
  split
  · have waits : Touches j s (modCtx j (fun c => { c with state := .runWait, reason := none }) s) := .modCtx _ rfl
    have joins : Elsewhere i s (queued j .run ((s.ctx j).runDraw - Config.standbyDraw)
        (modCtx j (fun c => { c with state := .runWait, reason := none }) s)) :=
      (waits.elsewhere other).trans ((queued_touches ..).elsewhere other)
    exact joins.trans (pass_elsewhere i _)
  · exact .refl i s

/-- R101: matching another card, whose windows are not ARMED. -/
theorem runMatching_elsewhere (other : i ≠ j) (unarmed : (s.map j).input.isArmed = false) : Elsewhere i s (runMatching j s) := by
  cases identity : (s.ctx j).identity with
  | none =>
    rw [runMatching_unidentified identity]
    exact .refl i s
  | some c =>
    rw [runMatching_identified identity]
    split
    · generalize matchCard _ _ _ = o
      cases o with
      | parked reason result position outcome count => exact (park_touches ..).1.elsewhere other
      | forward result layout rate count =>
        generalize ((s.expected j).any fun r => decide (r.admitMode = .onRelease)) = onRelease
        have goes : Touches j s (forwarded j result layout rate onRelease count s) :=
          (pinFor_neutral layout.set s).touches.trans ((Touches.modCtx _ rfl).trans (Neutral.post _ _).touches)
        refine (goes.elsewhere other).trans ?_
        dsimp only [endMatching]
        rw [goForward_eq]
        split
        · exact holdPointOne_elsewhere other
        · exact (Neutral.send _).elsewhere other
    · exact withReleases_elsewhere other unarmed fun t => (enterWithdrawn_touches j .disabled t).elsewhere other

end

/-! ### Slots that act one after another -/

/-- What an event elsewhere leaves, as far as slot `i` sees it. -/
structure Aside (i : SlotIx) (s t : State) : Prop where
  evolves : Evolves s t
  trunk : t.trunk = s.trunk
  retained : t.retained = s.retained
  stands : Elsewhere i s t

section
variable {i : SlotIx} {s t u : State}

theorem Aside.refl (i : SlotIx) (s : State) : Aside i s s := ⟨.refl s, rfl, rfl, .refl i s⟩

theorem Aside.trans (a : Aside i s t) (b : Aside i t u) : Aside i s u :=
  ⟨a.evolves.trans b.evolves, b.trunk.trans a.trunk, b.retained.trans a.retained, a.stands.trans b.stands⟩

theorem Aside.of_side (evolves : Evolves s t) (side : t.trunkSide = s.trunkSide) (stands : Elsewhere i s t) : Aside i s t :=
  ⟨evolves, congrArg Prod.fst side, congrArg Prod.snd side, stands⟩

/-- What one slot of a list acts on, and what is left of it when the others have acted. `R` is what the action of every other slot
keeps, and `P` what holds before each action, with the slots still to act. -/
theorem foldl_course {P : List SlotIx → State → Prop} {R : State → State → Prop} {act : SlotIx → State → State}
    (refl : ∀ s, R s s) (trans : ∀ {s t u}, R s t → R t u → R s u)
    (keeps : ∀ j l t, j ∉ l → P (j :: l) t → P l (act j t))
    (aside : ∀ j l t, j ≠ i → P (j :: l) t → R t (act j t)) (l : List SlotIx) :
    ∀ s, l.Nodup → P l s →
      (i ∉ l → R s (l.foldl (fun t j => act j t) s))
      ∧ (i ∈ l → ∃ u rest, P (i :: rest) u ∧ R s u ∧ R (act i u) (l.foldl (fun t j => act j t) s)) := by
  induction l with
  | nil => exact fun s _ _ => ⟨fun _ => refl s, fun h => absurd h List.not_mem_nil⟩
  | cons j l ih =>
    intro s nodup holds
    obtain ⟨fresh, nodup⟩ := List.nodup_cons.mp nodup
    obtain ⟨absent, present⟩ := ih (act j s) nodup (keeps j l s fresh holds)
    refine ⟨fun notIn => ?_, fun isIn => ?_⟩
    · obtain ⟨other, later⟩ := List.ne_and_not_mem_of_not_mem_cons notIn
      exact trans (aside j l s (Ne.symm other) holds) (absent later)
    · rcases List.mem_cons.mp isIn with rfl | later
      · exact ⟨s, l, holds, refl s, absent fresh⟩
      · have other : j ≠ i := fun same => fresh (same ▸ later)
        obtain ⟨u, rest, ready, before, after⟩ := present later
        exact ⟨u, rest, ready, trans (aside j l s other holds) before, after⟩

end

end Sys2Proof.Machine
end

section
/-! SUPPORT. PSET_CLOSE (R123, R113): the set is fixed, and the cards parked for it are matched again one after another. -/

namespace Sys2Proof.Machine

/-! ### Matching against a set that is CLOSED (R106) -/

/-- R102 to R106: a card judged against a record is a MISMATCH, or settled. -/
theorem matchCard_some_cases (closed : SetIx → Bool) (c : Identity) (r : ExpRecord) :
    (∃ sub k p count, matchCard closed c (some r) = mismatched sub k p count) ∨ ∃ k, matchCard closed c (some r) = settle closed k c r := by
  cases chosen : candidate c r with
  | none => exact .inl ⟨_, _, _, _, matchCard_identity closed chosen⟩
  | some k =>
    by_cases size : SizeAccepted k c r
    · cases sub : subMismatch c r with
      | some p => exact .inl ⟨_, _, _, _, matchCard_submod closed chosen size sub⟩
      | none =>
        by_cases power : r.drawCap < c.runDraw
        · exact .inl ⟨_, _, _, _, matchCard_power closed chosen size sub power⟩
        · exact .inr ⟨k, matchCard_settles closed chosen size sub (Nat.not_lt.mp power)⟩
    · exact .inl ⟨_, _, _, _, matchCard_size closed chosen size⟩

section
variable {closed : SetIx → Bool} {c : Identity} {r : ExpRecord}

/-- R106: a card is not parked for a set that is CLOSED. -/
theorem matchCard_parked {reason : Reason} {result : MatchResult} {position : Option Nat} {outcome : SetOutcome} {count : Nat}
    (available : ∀ n, r.set = some n → closed n = true)
    (judged : matchCard closed c (some r) = .parked reason result position outcome count) : reason = .mismatch := by
  rcases matchCard_some_cases closed c r with ⟨sub, k, p, n, same⟩ | ⟨k, same⟩
  · rw [same] at judged
    cases judged
    rfl
  · rw [same, settle_forward closed available] at judged
    cases judged

/-- R111: the layout a card goes forward with names the record's set. -/
theorem matchCard_forward {result : MatchResult} {layout : Layout} {rate : RateCode} {count : Nat}
    (available : ∀ n, r.set = some n → closed n = true)
    (judged : matchCard closed c (some r) = .forward result layout rate count) : layout.set = r.set := by
  rcases matchCard_some_cases closed c r with ⟨sub, k, p, n, same⟩ | ⟨k, same⟩
  · rw [same] at judged
    cases judged
  · rw [same, settle_forward closed available] at judged
    cases judged
    rfl

end

/-! ### What a matching does to the pins (R127) -/

section
variable {i : SlotIx} {s t : State} {n : SetIx}

theorem Store.pinned_pins (st : Store) (named : Option SetIx) (n : SetIx) :
    ((st.pinned named).set n).pins = if named = some n then (st.set n).pins + 1 else (st.set n).pins := by
  cases named with
  | none => rfl
  | some m =>
    by_cases same : m = n
    · subst same
      simp [Store.pinned, Store.set]
    · have other : m.val ≠ n.val := fun e => same (Fin.ext e)
      simp [Store.pinned, Store.set, same, other]

theorem park_store (reason : Reason) (result : MatchResult) (position : Option Nat) (outcome : SetOutcome) (count : Nat) :
    (park i reason result position outcome count s).store = s.store := by
  rw [park_eq]
  split <;> rfl

theorem holdPointOne_store : (holdPointOne i s).store = s.store := by
  unfold holdPointOne
  split
  · exact (Beside.pass (checks := False) _).store
  · rfl

theorem goForward_store (result : MatchResult) (layout : Layout) (rate : RateCode) (onRelease : Bool) (count : Nat) :
    (goForward i result layout rate onRelease count s).store = s.store.pinned layout.set := by
  have goes : (forwarded i result layout rate onRelease count s).store = s.store.pinned layout.set := by rw [forwarded_eq]
  rw [goForward_eq]
  split
  · exact holdPointOne_store.trans goes
  · exact (send_store _ _ _).trans goes

/-- R127: a matching against an enabled record or none gives up no pin. -/
theorem runMatching_pins (enabled : (s.expected i).all ExpRecord.enabled = true) :
    (s.store.set n).pins ≤ ((runMatching i s).store.set n).pins := by
  cases identity : (s.ctx i).identity with
  | none => rw [runMatching_unidentified identity]
  | some c =>
    rw [runMatching_identified identity, if_pos enabled]
    generalize matchCard _ _ _ = o
    cases o with
    | parked reason result position outcome count => exact Nat.le_of_eq (by rw [endMatching, park_store])
    | forward result layout rate count =>
      rw [endMatching, goForward_store, Store.pinned_pins]
      split
      · exact Nat.le_succ _
      · exact Nat.le_refl _

/-! ### A card matched again, and what follows elsewhere -/

/-- R11, R49: a context that joins the power-up queue, and is granted or not in what follows. -/
theorem enterRunWait_course (noEntry : entriesIn s.power.queue i = []) (after : Elsewhere i (enterRunWait i s) t) :
    t.ctx i = { s.ctx i with state := .runWait, reason := none }
      ∨ t.ctx i = { s.ctx i with state := .runInrush, reason := none, heldDraw := (s.ctx i).runDraw } := by
  let waits := modCtx i (fun c => { c with state := .runWait, reason := none }) s
  let joined := queued i .run ((s.ctx i).runDraw - Config.standbyDraw) waits
  have ctx : joined.ctx i = { s.ctx i with state := .runWait, reason := none } :=
    modCtx_ctx_same i (fun c => { c with state := .runWait, reason := none }) s
  have course : Elsewhere i joined t := (pass_elsewhere i joined).trans after
  rcases course with ⟨slot, -⟩ | ⟨e, listed, slot, -⟩
  · exact .inl ((congrArg Slot.ctx slot).trans ctx)
  · have entries : entriesIn joined.power.queue i = [(.run, (s.ctx i).runDraw - Config.standbyDraw)] := by
      have before : entriesIn waits.power.queue i = [] := noEntry
      simp only [joined, queued, modRack_power, entriesIn_append, before]
      simp [entriesIn]
    rw [entries, List.mem_singleton] at listed
    rw [listed] at slot
    refine .inr ((congrArg Slot.ctx slot).trans ?_)
    exact congrArg (fun x : Context => { x with state := CtxState.runInrush, reason := none, heldDraw := x.runDraw }) ctx

variable {c : Identity} {r : ExpRecord} {closed : SetIx → Bool}

/-- R107, R112: a card that stays PARKED, for another reason than before. -/
theorem park_course {reason : Reason} {result : MatchResult} {position : Option Nat} {outcome : SetOutcome} {count : Nat}
    (noEntry : entriesIn s.power.queue i = []) (other : (s.ctx i).reason ≠ some reason)
    (after : Aside i (park i reason result position outcome count s) t) (onRelease : Bool) :
    Posted (some i) (MatchOutcome.event (.parked reason result position outcome count)) s t
      ∧ t.slot i = { s.slot i with ctx := (s.ctx i).matched onRelease (.parked reason result position outcome count) }
      ∧ Posted (some i) (.milestone .parked (some reason) (if reason = .mismatch then result.sub else none) none) s t := by
  have parked := park_eq i s reason result position outcome count
  rw [if_neg fun same => other same.2.1] at parked
  have entries : entriesIn (park i reason result position outcome count s).power.queue i = [] := by
    rw [(park_touches i reason result position outcome count s).2.2.2.2]
    exact noEntry
  rw [parked] at after entries
  refine ⟨?_, (after.stands.stands entries).1.trans (slot_setSlot_same s i _), ?_⟩
  · exact (posted_post_setSlot _ _ s i _).extend (.refl s) rfl ((Evolves.post _ _ (.refl _)).trans after.evolves)
  · have early := (Becomes.setSlot i
      { s.slot i with ctx := (s.ctx i).matched onRelease (.parked reason result position outcome count) } s rfl).evolves
    exact (posted_post (some i) _ (post _ _ (s.setSlot i _))).extend (Evolves.post _ _ early) rfl after.evolves

/-- R107, R127: a card that goes forward. -/
theorem goForward_course {result : MatchResult} {layout : Layout} {rate : RateCode} {onRelease : Bool} {count : Nat}
    (noEntry : entriesIn s.power.queue i = []) (after : Aside i (goForward i result layout rate onRelease count s) t) :
    let y := (s.ctx i).matched onRelease (.forward result layout rate count)
    Posted (some i) (MatchOutcome.event (.forward result layout rate count)) s t
      ∧ if rate ≠ 0 then t.slot i = { s.slot i with ctx := y, link := (s.link i).asks (.setRate rate) }
        else if y.hold then t.slot i = { s.slot i with ctx := y }
        else t.ctx i = { y with state := .runWait } ∨ t.ctx i = { y with state := .runInrush, heldDraw := y.runDraw } := by
  intro y
  let f := forwarded i result layout rate onRelease count s
  have slot : f.slot i = { s.slot i with ctx := y } := forwarded_slot i s result layout rate onRelease count
  have ctx : f.ctx i = y := congrArg Slot.ctx slot
  have link : f.link i = s.link i := (congrArg Slot.link slot).trans rfl
  have entries : entriesIn f.power.queue i = [] := by
    rw [show f = _ from forwarded_eq i s result layout rate onRelease count]
    exact noEntry
  have event : Posted (some i) (MatchOutcome.event (.forward result layout rate count)) s f := by
    rw [show f = _ from forwarded_eq i s result layout rate onRelease count]
    exact posted_post_setSlot _ _ s i _
  rw [goForward_eq] at after
  by_cases zero : rate = 0
  · rw [if_pos zero] at after
    rw [if_neg (not_not.mpr zero)]
    refine ⟨event.extend (.refl s) rfl ((Evolves.holdPointOne i (.refl _)).trans after.evolves), ?_⟩
    by_cases hold : y.hold = true
    · rw [holdPointOne_held (by rw [show (f.ctx i) = y from ctx]; exact hold)] at after
      rw [if_pos hold]
      exact (after.stands.stands entries).1.trans slot
    · have free := Bool.eq_false_iff.mpr hold
      rw [holdPointOne_free (by rw [show (f.ctx i) = y from ctx]; rfl) (by rw [show (f.ctx i) = y from ctx]; exact free)] at after
      rw [if_neg hold]
      have course := enterRunWait_course entries after.stands
      rw [ctx] at course
      exact course
  · rw [if_neg zero] at after
    rw [if_pos zero]
    refine ⟨event.extend (.refl s) rfl ((Evolves.send i _ (.refl _)).trans after.evolves), ?_⟩
    have asked := send_request_eq i f (.setRate rate)
    rw [slot, link] at asked
    have sent : entriesIn (send i (.request (.setRate rate)) f).power.queue i = [] := by rw [send_power]; exact entries
    refine (after.stands.stands sent).1.trans ?_
    rw [asked]
    exact slot_setSlot_same f i _

end

/-! ### The set fixed, and the cards that waited for it -/

section
variable {s : State} {n : SetIx}

/-- R123: the state with the set CLOSED. -/
def State.closed (s : State) (n : SetIx) : State := modStore (Store.closeSet n) s

theorem closed_set (m : SetIx) : (s.closed n).store.set m
    = if m = n then { s.store.set n with state := .closed, writePointer := none } else s.store.set m := by
  by_cases same : m = n
  · subst same
    simp [State.closed, Store.closeSet, Store.setRecord, Store.set]
  · have other : n.val ≠ m.val := fun e => same (Fin.ext e.symm)
    simp [State.closed, Store.closeSet, Store.setRecord, Store.set, same, other]

theorem psetClose_notOpen (h : (s.store.set n).state ≠ .opened) : psetClose n s = (s, refuse .notOpen) := if_pos h

theorem psetClose_opened (h : (s.store.set n).state = .opened) : psetClose n s =
    (forList ((s.closed n).slotsWhere (Slot.waitsFor n)) runMatching (s.closed n),
      done (.closed (s.store.set n).length (s.store.set n).sum16)) := by
  have own := closed_set (s := s) (n := n) n
  rw [if_pos rfl] at own
  rw [psetClose, if_neg (not_not.mpr h)]
  show (_, done (.closed ((s.closed n).store.set n).length ((s.closed n).store.set n).sum16)) = _
  rw [own]
  rfl

theorem Slot.waitsFor_iff (x : Slot) : x.waitsFor n = true ↔
    x.ctx.state = .parked ∧ x.ctx.reason = some .setUnavailable ∧ ∃ r, x.expected = some r ∧ r.set = some n := by
  simp only [Slot.waitsFor, Bool.and_eq_true, decide_eq_true_eq, and_assoc, Option.bind_eq_some_iff]

/-- The cards that still wait in the course of the matchings: everything is in order, and these stand as the set was closed. -/
structure StillParked (v : State) (l : List SlotIx) (t : State) : Prop where
  sound : Sound True none t
  evolves : Evolves v t
  stand : ∀ j ∈ l, t.slot j = v.slot j ∧ (t.ctx j).state = .parked

/-- What another card's matching leaves of slot `i`, and of the pins of a set when the record is enabled. -/
def LeavesParked (enabled : Prop) (n : SetIx) (i : SlotIx) (s t : State) : Prop :=
  Aside i s t ∧ (enabled → (s.store.set n).pins ≤ (t.store.set n).pins)

theorem StillParked.noEntry {v t : State} {l : List SlotIx} {j : SlotIx} (h : StillParked v l t) (member : j ∈ l) :
    entriesIn t.power.queue j = [] := by
  rw [(h.sound.at j).power.entries, Context.entry, (h.stand j member).2]

theorem StillParked.aside {v t : State} {l : List SlotIx} {j : SlotIx} (h : StillParked v (j :: l) t) {i : SlotIx} (other : i ≠ j) :
    Aside i t (runMatching j t) := by
  have unarmed := (h.sound.mapOk trivial).unarmed (i := j) (by rw [(h.stand j List.mem_cons_self).2]; exact nofun)
  exact .of_side (Evolves.runMatching j (.refl t)) (runMatching_trunkSide j t) (runMatching_elsewhere other unarmed)

theorem StillParked.next {v t : State} {l : List SlotIx} {j : SlotIx} (fresh : j ∉ l) (h : StillParked v (j :: l) t) :
    StillParked v l (runMatching j t) := by
  have parked := (h.stand j List.mem_cons_self).2
  refine ⟨runMatching_sound h.sound (by rw [parked]; rfl), h.evolves.trans (Evolves.runMatching j (.refl t)), fun k hk => ?_⟩
  have member := List.mem_cons_of_mem j hk
  have other : k ≠ j := fun same => fresh (same ▸ hk)
  obtain ⟨slot, -⟩ := (h.aside other).stands.stands (h.noEntry member)
  obtain ⟨stands, waits⟩ := h.stand k member
  exact ⟨slot.trans stands, (congrArg (fun x : Slot => x.ctx.state) slot).trans waits⟩

/-- R113: what is left of a slot when the cards that waited have been matched again, and what its own matching starts from. -/
theorem matchedAgain_course {t : State} (power : PowerOk s) (map : MapOk s)
    (matched : forList ((s.closed n).slotsWhere (Slot.waitsFor n)) runMatching (s.closed n) = t) (i : SlotIx) :
    let v := s.closed n
    let enabled := ∀ j, (s.slot j).waitsFor n = true → (s.expected j).all ExpRecord.enabled = true
    ((s.slot i).waitsFor n = false → Aside i v t)
    ∧ ((s.slot i).waitsFor n = true → ∃ u rest, StillParked v (i :: rest) u ∧ LeavesParked enabled n i v u
        ∧ LeavesParked enabled n i (runMatching i u) t) := by
  subst matched
  intro v enabled
  let w : State := { v with choices := v.choices + 1 }
  have begins : Aside i v w := ⟨(Beside.choices (checks := False) _ _).evolves, rfl, rfl, .of_same rfl rfl⟩
  have order := freeOrder_perm v.choices (v.slotsWhere (Slot.waitsFor n))
  have listed : ∀ j, j ∈ freeOrder v.choices (v.slotsWhere (Slot.waitsFor n)) ↔ (s.slot j).waitsFor n = true := fun j => by
    rw [order.mem_iff]
    exact List.mem_filter.trans (and_iff_right (mem_allSlots j))
  have nodup : (freeOrder v.choices (v.slotsWhere (Slot.waitsFor n))).Nodup := order.nodup_iff.mpr (List.Nodup.filter _ (by decide))
  have sound : Sound True none w :=
    Sound.choices ((map.sound power).of_same (t := v) (fun _ => rfl) rfl rfl rfl) _
  have starts : StillParked v (freeOrder v.choices (v.slotsWhere (Slot.waitsFor n))) w :=
    ⟨sound, begins.evolves, fun j hj => ⟨rfl, ((Slot.waitsFor_iff _).mp ((listed j).mp hj)).1⟩⟩
  have keeps : ∀ j l u, j ∉ l → (StillParked v (j :: l) u ∧ ∀ k ∈ j :: l, (s.slot k).waitsFor n = true) →
      StillParked v l (runMatching j u) ∧ ∀ k ∈ l, (s.slot k).waitsFor n = true :=
    fun j l u fresh h => ⟨h.1.next fresh, fun k hk => h.2 k (List.mem_cons_of_mem j hk)⟩
  have leaves : ∀ j l u, j ≠ i → (StillParked v (j :: l) u ∧ ∀ k ∈ j :: l, (s.slot k).waitsFor n = true) →
      LeavesParked enabled n i u (runMatching j u) := fun j l u other h =>
    ⟨h.1.aside (Ne.symm other), fun all => runMatching_pins (by
      rw [h.1.evolves.expected]
      exact all j (h.2 j List.mem_cons_self))⟩
  obtain ⟨absent, present⟩ := foldl_course (i := i) (act := runMatching)
    (P := fun l u => StillParked v l u ∧ ∀ k ∈ l, (s.slot k).waitsFor n = true) (R := LeavesParked enabled n i) (fun u => ⟨.refl i u, fun _ => Nat.le_refl _⟩)
    (fun a b => ⟨a.1.trans b.1, fun all => Nat.le_trans (a.2 all) (b.2 all)⟩) keeps leaves _ w nodup
    ⟨starts, fun k hk => (listed k).mp hk⟩
  refine ⟨fun idle => begins.trans (absent fun member => ?_).1, fun waits => ?_⟩
  · rw [listed, idle] at member
    cases member
  · obtain ⟨u, rest, ready, before, after⟩ := present ((listed i).mpr waits)
    exact ⟨u, rest, ready.1, ⟨begins.trans before.1, before.2⟩, after⟩

theorem exec_psetClose {tag : Byte} {t : State} {a : Answer} (quiet : s.quiet) (h : psetClose n s = (t, a)) :
    exec (.psetClose tag (setByte n) 0 []) s = .next (t.answered (requestFor .psetClose tag (setByte n) []) a) := by
  have performed : perform (requestFor .psetClose tag (setByte n) []) s = psetClose n s :=
    setRequest_requestFor .psetClose tag n [] (ok := exactly 0) psetClose s (by simp) rfl
  exact exec_row (name := .psetClose) (payload := []) quiet (performed.trans h)

/-- R117: the sets as the matchings leave them: only pins have changed. -/
theorem closed_isClosed {u : State} (h : Evolves (s.closed n) u) :
    u.store.isClosed = fun m => decide (m = n ∨ (s.store.set m).state = .closed) := by
  funext m
  have state : (u.store.set m).state = ((s.closed n).store.set m).state :=
    (congrArg SetRecord.state (h.sets m) :)
  rw [Store.isClosed, state, closed_set]
  by_cases same : m = n
  · simp [same]
  · simp [same]

end

/-! ### O25 -/

section
variable {s : State} {n : SetIx} {i : SlotIx} {u v t : State} {r : ExpRecord} {c : Identity}

/-- R101: a card that waited, whose record is DISABLED. -/
theorem matchedAgain_disabled {rest : List SlotIx} (ready : StillParked v (i :: rest) u) (before : Aside i v u)
    (after : Aside i (runMatching i u) t) (record : v.expected i = some r) (disabled : r.enabled = false)
    (identity : (v.ctx i).identity ≠ none) :
    t.slot i = { v.slot i with
        ctx := (v.ctx i).withdrawn .disabled, power := (v.slotPower i).off, link := (v.link i).gone, map := (v.map i).released }
      ∧ (∀ e ∈ t.power.queue, e.slot ≠ i) ∧ Posted (some i) (.milestone .withdrawn (some .disabled) none none) v t := by
  have slot := (ready.stand i List.mem_cons_self).1
  have known : (u.ctx i).identity = (v.ctx i).identity := congrArg (fun x : Slot => x.ctx.identity) slot
  obtain ⟨c, card⟩ := Option.ne_none_iff_exists'.mp identity
  have held : u.expected i = some r := (ready.evolves.expected i).trans record
  have withdraws : runMatching i u = withReleases i (enterWithdrawn i .disabled) u := by
    rw [runMatching_identified (known.trans card), held]
    exact if_neg (by simp [disabled])
  rw [withdraws] at after
  obtain ⟨gives, posted⟩ := withReleases_withdraws i .disabled u (ready.sound.powerOk.off i) ((ready.sound.mapOk trivial).paired i)
  obtain ⟨stands, noEntry⟩ := after.stands.stands (entriesIn_nil gives.entry)
  refine ⟨stands.trans (gives.slot.trans ?_), no_entry_of_entriesIn noEntry, posted.extend before.evolves (by rw [before.trunk]) after.evolves⟩
  simp only [State.ctx, State.slotPower, State.link, State.map, slot]

/-- R106, R107: a card that waited, judged by its enabled record. -/
theorem matchedAgain_enabled {rest : List SlotIx} (ready : StillParked v (i :: rest) u) (before : Aside i v u)
    (after : Aside i (runMatching i u) t) (record : v.expected i = some r) (enabled : r.enabled = true)
    (identity : (v.ctx i).identity = some c) {closed : SetIx → Bool} (sets : u.store.isClosed = closed)
    (available : ∀ m, r.set = some m → closed m = true) (waits : (v.ctx i).reason = some .setUnavailable) :
    let o := matchCard closed c (some r)
    let y := (v.ctx i).matched (decide (r.admitMode = .onRelease)) o
    Posted (some i) o.event v t
      ∧ (∀ reason result position outcome count, o = .parked reason result position outcome count →
          t.slot i = { v.slot i with ctx := y }
          ∧ Posted (some i) (.milestone .parked (some reason) (if reason = .mismatch then result.sub else none) none) v t)
      ∧ ∀ result layout rate count, o = .forward result layout rate count →
          (runMatching i u).store = u.store.pinned r.set
          ∧ if rate ≠ 0 then t.slot i = { v.slot i with ctx := y, link := (v.link i).asks (.setRate rate) }
            else if y.hold then t.slot i = { v.slot i with ctx := y }
            else t.ctx i = { y with state := .runWait } ∨ t.ctx i = { y with state := .runInrush, heldDraw := max 150 c.runDraw } := by
  intro o y
  have slot := (ready.stand i List.mem_cons_self).1
  have ctx : u.ctx i = v.ctx i := congrArg Slot.ctx slot
  have link : u.link i = v.link i := congrArg Slot.link slot
  have held : u.expected i = some r := (ready.evolves.expected i).trans record
  have matched : runMatching i u = endMatching i (decide (r.admitMode = .onRelease)) o u := by
    rw [runMatching_identified ((congrArg Context.identity ctx).trans identity), held, sets]
    exact if_pos enabled
  have noEntry := ready.noEntry List.mem_cons_self
  rw [matched] at after ⊢
  have early {body : EventBody} (h : Posted (some i) body u t) : Posted (some i) body v t :=
    h.extend before.evolves (by rw [before.trunk]) (.refl t)
  have judged : matchCard closed c (some r) = o := rfl
  clear_value o
  cases o with
  | parked reason result position outcome count =>
    have mismatch := matchCard_parked available judged
    obtain ⟨event, stands, milestone⟩ := park_course noEntry (by rw [ctx, waits, mismatch]; decide) after (decide (r.admitMode = .onRelease))
    rw [slot, ctx] at stands
    refine ⟨early event, fun reason' result' position' outcome' count' same => ?_, fun _ _ _ _ same => MatchOutcome.noConfusion same⟩
    cases same
    refine ⟨?_, early milestone⟩
    exact stands
  | forward result layout rate count =>
    have set := matchCard_forward available judged
    obtain ⟨event, goes⟩ := goForward_course noEntry after
    have same : (u.ctx i).matched (decide (r.admitMode = .onRelease)) (.forward result layout rate count) = y := by rw [ctx]
    have draw : y.runDraw = max 150 c.runDraw := by
      rw [← same]
      show max 150 (((u.ctx i).identity.map Identity.runDraw).getD 0) = _
      rw [ctx, identity]
      rfl
    rw [same, slot, link, draw] at goes
    refine ⟨early event, fun _ _ _ _ _ same => MatchOutcome.noConfusion same, fun result' layout' rate' count' same' => ?_⟩
    cases same'
    exact ⟨(goForward_store ..).trans (by rw [set]), goes⟩

end

/-- Settles O25: each card that waited is followed through the matchings of the others. -/
theorem psetCloseFixesTheSet : Obligations.PsetCloseFixesTheSet := by
  unfold Obligations.PsetCloseFixesTheSet
  intro s tag n quiet power map x waits closes
  refine ⟨fun notOpen => exec_psetClose quiet (psetClose_notOpen notOpen), fun opened => ?_⟩
  let v := s.closed n
  have waits_iff : ∀ i, (s.slot i).waitsFor n = true ↔ waits i := fun i => Slot.waitsFor_iff _
  obtain ⟨t, matched⟩ : ∃ t, forList (v.slotsWhere (Slot.waitsFor n)) runMatching v = t := ⟨_, rfl⟩
  have performed := psetClose_opened opened
  rw [show forList ((s.closed n).slotsWhere (Slot.waitsFor n)) runMatching (s.closed n) = t from matched] at performed
  have course := matchedAgain_course power map matched
  have evolves : Evolves v t := matched ▸ Evolves.forList _ runMatching (fun i _ h => Evolves.runMatching i h) (.refl v)
  have side : t.trunkSide = v.trunkSide := matched ▸ forList_trunkSide _ runMatching_trunkSide v
  have own := closed_set (s := s) (n := n) n
  rw [if_pos rfl] at own
  refine ⟨t, exec_psetClose quiet performed, ?_, fun m hm => ?_, evolves.pool, evolves.memory, congrArg Prod.fst side,
    evolves.budget, evolves.expected, evolves.events, fun i idle => ?_, fun i r waiting record disabled identity => ?_,
    fun i r c waiting record enabled identity => ?_⟩
  · have same := evolves.sets n
    rw [show v.store.set n = _ from own] at same
    exact (congrArg (fun y : SetRecord => { y with pins := x.pins }) same :)
  · have same := evolves.sets m
    rw [show v.store.set m = _ from (closed_set m).trans (if_neg hm)] at same
    exact same
  · have apart := (course i).1 (Bool.eq_false_iff.mpr fun h => idle ((waits_iff i).mp h))
    exact apart.stands.slot_or_entry
  · obtain ⟨u, rest, ready, before, after⟩ := (course i).2 ((waits_iff i).mpr waiting)
    exact matchedAgain_disabled (v := v) ready before.1 after.1 record disabled identity
  · obtain ⟨u, rest, ready, before, after⟩ := (course i).2 ((waits_iff i).mpr waiting)
    obtain ⟨-, reason, r', record', set⟩ := waiting
    obtain rfl : r = r' := Option.some.inj (record.symm.trans record')
    intro o y
    have available : ∀ m, r.set = some m → decide (m = n ∨ (s.store.set m).state = .closed) = true := fun m named => by
      rw [set] at named
      exact decide_eq_true (.inl (Option.some.inj named).symm)
    obtain ⟨event, parks, goes⟩ := matchedAgain_enabled (v := v) ready before.1 after.1 record enabled identity
      (closed_isClosed ready.evolves) available reason
    refine ⟨event, ?_⟩
    cases judged : o with
    | parked why result position outcome count => exact parks _ _ _ _ _ judged
    | forward result layout rate count =>
      obtain ⟨store, slot⟩ := goes _ _ _ _ judged
      refine ⟨fun enabledAll => ?_, slot⟩
      have all : ∀ j, (s.slot j).waitsFor n = true → (s.expected j).all ExpRecord.enabled = true := fun j hj => by
        cases held : s.expected j with
        | none => rfl
        | some e => exact enabledAll j e ((waits_iff j).mp hj) held
      have rises := after.2 all
      rw [store, Store.pinned_pins, if_pos set] at rises
      have first := before.2 all
      rw [own] at first
      exact Nat.lt_of_lt_of_le (Nat.lt_succ_of_le first) rises

end Sys2Proof.Machine
end

section
/-! SUPPORT. Exchange starts slot by slot (R70 to R72): what concludes an exchange, what starts the next one, and the return frame
(R149), each as a change of the slots by themselves. -/

namespace Sys2Proof.Machine

/-! ### Slots that act each by itself -/

/-- Only the slots have changed, each by itself. -/
structure Slotwise (f : SlotIx → Slot → Slot) (s t : State) : Prop where
  same : ∃ slots, t = { s with slots := slots }
  slot : ∀ j, t.slot j = f j (s.slot j)

section
variable {act : SlotIx → State → State} {f g : SlotIx → Slot → Slot} {s t u : State}

theorem foldl_slotwise (h : ∀ i t, t.trunk = s.trunk → act i t = t.setSlot i (f i (t.slot i))) (l : List SlotIx) :
    ∀ t : State, l.Nodup → t.trunk = s.trunk →
      (∃ slots, l.foldl (fun t i => act i t) t = { t with slots := slots })
      ∧ ∀ j, (l.foldl (fun t i => act i t) t).slot j = if j ∈ l then f j (t.slot j) else t.slot j := by
  induction l with
  | nil => exact fun t _ _ => ⟨⟨t.slots, rfl⟩, fun j => (if_neg List.not_mem_nil).symm⟩
  | cons i l ih =>
    intro t distinct trunk
    obtain ⟨first, later⟩ := List.nodup_cons.mp distinct
    obtain ⟨⟨slots, folded⟩, at_⟩ := ih (act i t) later (by rw [h i t trunk]; exact trunk)
    refine ⟨⟨slots, by rw [List.foldl_cons, folded, h i t trunk]; rfl⟩, fun j => ?_⟩
    rw [List.foldl_cons, at_ j, h i t trunk]
    by_cases own : j = i
    · rw [own, if_neg first, if_pos List.mem_cons_self, slot_setSlot_same]
    · rw [slot_setSlot_ne _ _ own]
      simp only [List.mem_cons, own, false_or]

theorem eachSlot_slotwise (h : ∀ i t, t.trunk = s.trunk → act i t = t.setSlot i (f i (t.slot i))) : Slotwise f s (eachSlot act s) := by
  obtain ⟨same, slot⟩ := foldl_slotwise h allSlots s (by decide) rfl
  exact ⟨same, fun j => (slot j).trans (if_pos (mem_allSlots j))⟩

theorem Slotwise.trunk (h : Slotwise f s t) : t.trunk = s.trunk := by obtain ⟨slots, rfl⟩ := h.same; rfl
theorem Slotwise.retained (h : Slotwise f s t) : t.retained = s.retained := by obtain ⟨slots, rfl⟩ := h.same; rfl
theorem Slotwise.requests (h : Slotwise f s t) : t.requests = s.requests := by obtain ⟨slots, rfl⟩ := h.same; rfl
theorem Slotwise.power (h : Slotwise f s t) : t.power = s.power := by obtain ⟨slots, rfl⟩ := h.same; rfl
theorem Slotwise.store (h : Slotwise f s t) : t.store = s.store := by obtain ⟨slots, rfl⟩ := h.same; rfl
theorem Slotwise.events (h : Slotwise f s t) : t.events = s.events := by obtain ⟨slots, rfl⟩ := h.same; rfl

end

/-! ### The end of an exchange in flight (R17, R71, R72) -/

/-- R17, R23, R24: a slot whose third miss has come. -/
def Slot.lostLink (x : Slot) : Slot :=
  if x.ctx.state = .running then
    { x with
      ctx := { x.ctx with state := .draining, reason := some .linkLost, attempts := min 3 (x.ctx.attempts + 1) }
      link := { x.link with lost := true }, map := x.map.change Window.retire }
  else { x with link := { x.link with lost := true } }

/-- R17, R72: a slot with one miss more. -/
def Slot.missed (x : Slot) : Slot :=
  let y := { x with
    ctx := { x.ctx with missCount := min 3 (x.ctx.missCount + 1), goodRun := 0 }
    link := { x.link.exchangeOver with input := .stale } }
  if y.ctx.missCount = 3 then y.lostLink else y

/-- R71: a slot at an exchange start, its card `sending` or not. -/
def Slot.concluded (sending : Bool) (x : Slot) : Slot :=
  if x.ctx.state.exchanges && x.link.exchange.isSome then
    { x with link := { x.link with receiving := x.link.receiving || sending } }.missed
  else x

section
variable (i : SlotIx) (s : State)

theorem reportLinkLost_setSlot (x : Slot) : reportLinkLost i (s.setSlot i { x with link := { x.link with lost := true } })
    = s.setSlot i x.lostLink := by
  unfold reportLinkLost Slot.lostLink
  rw [ctx_setSlot_same]
  split
  · rw [enterDraining, retire, raiseAttempts, modCtx_setSlot, modMap_setSlot, modCtx_setSlot]
    rfl
  · rfl

theorem miss_eq (x : Slot) : miss i (s.setSlot i x) = s.setSlot i x.missed := by
  unfold miss Slot.missed
  dsimp only
  rw [modLink_setSlot, modCtx_setSlot, ctx_setSlot_same, LinkEngine.endExchange_eq]
  split
  · rw [modLink_setSlot]
    exact reportLinkLost_setSlot i s _
  · rfl

theorem setSlot_self : s.setSlot i (s.slot i) = s := by
  simp only [State.setSlot, State.slot, Fin.getElem_fin, Vector.set_getElem_self]

theorem concludeExchange_eq (sending : SlotIx → Bool) :
    concludeExchange sending i s = s.setSlot i ((s.slot i).concluded (sending i)) := by
  unfold concludeExchange Slot.concluded
  by_cases due : ((s.ctx i).state.exchanges && (s.link i).exchange.isSome) = true
  · rw [if_pos due, if_pos (show ((s.slot i).ctx.state.exchanges && (s.slot i).link.exchange.isSome) = true from due), modLink_eq, miss_eq]
    rfl
  · rw [if_neg due, if_neg (show ¬ ((s.slot i).ctx.state.exchanges && (s.slot i).link.exchange.isSome) = true from due), setSlot_self]

theorem concluded_slotwise (sending : SlotIx → Bool) :
    Slotwise (fun j x => x.concluded (sending j)) s (eachSlot (concludeExchange sending) s) :=
  eachSlot_slotwise fun i t _ => concludeExchange_eq i t sending

end

section
variable {x : Slot} {sending : Bool}

theorem Slot.concluded_idle (h : x.ctx.state.exchanges = false ∨ x.link.exchange = none) : x.concluded sending = x := by
  refine if_neg fun due => ?_
  rw [Bool.and_eq_true] at due
  rcases h with h | h
  · rw [h] at due
    cases due.1
  · rw [h] at due
    cases due.2

/-- R71: the link of a slot whose exchange in flight has been concluded. -/
def LinkEngine.concluded (sending : Bool) (l : LinkEngine) : LinkEngine :=
  { l.exchangeOver with input := .stale, receiving := l.receiving || sending }

theorem Slot.concluded_flying (serves : x.ctx.state.exchanges = true) (flying : x.link.exchange ≠ none) :
    x.concluded sending =
      let y := { x with
        ctx := { x.ctx with missCount := min 3 (x.ctx.missCount + 1), goodRun := 0 }, link := x.link.concluded sending }
      if 2 ≤ x.ctx.missCount then y.lostLink else y := by
  have due : (x.ctx.state.exchanges && x.link.exchange.isSome) = true := by
    rw [serves, Option.isSome_iff_ne_none.mpr flying]
    rfl
  have third : min 3 (x.ctx.missCount + 1) = 3 ↔ 2 ≤ x.ctx.missCount := by omega
  rw [Slot.concluded, if_pos due]
  exact if_congr third rfl rfl

end

/-! ### Exchanges that start (R70, R167) -/

/-- R70: a slot that starts an exchange. -/
def Slot.starts (flag : OutFlag) (outputs : Bytes) (x : Slot) : Slot := { x with link := x.link.exchanges flag outputs }

/-- R169: the outputs of a slot, from a source image and the output length. -/
def Slot.outputs (source : Bytes) (outLength : Nat) (x : Slot) : Bytes :=
  (List.range x.ctx.co).map
    (outputByte source outLength x.map.output.span.offset ((x.map.tables.map TableCopy.outTable).getD []))

/-- R70, R167, R169: a slot at a mark or tick, its inputs and windows dealt with. -/
def Slot.startsBuilt (flag : OutFlag) (source : Bytes) (outLength : Nat) (x : Slot) : Slot :=
  if x.mayExchange then x.starts flag (x.outputs source outLength) else x

/-- R70, R144: a slot at a bad frame, its exchange in flight dealt with. -/
def Slot.startsHold (x : Slot) : Slot :=
  if x.mayExchange then x.starts .hold (x.link.lastOutputs.getD (List.replicate x.ctx.co 0)) else x

section
variable {i : SlotIx} {s : State} {x : Slot} {source : Bytes} {outLength : Nat}

theorem startExchange_eq (flag : OutFlag) (outputs : Bytes) :
    startExchange i flag outputs s = s.setSlot i ((s.slot i).starts flag outputs) := by
  have busy_iff := occupied_iff { s.link i with exchange := some flag, next := none }
  unfold startExchange Slot.starts LinkEngine.exchanges
  rw [modLink_eq_relink]
  by_cases busy : (s.link i).turnaround.isSome = true ∨ (s.link i).sending.isSome = true ∨ (s.link i).receiving = true
  · rw [send_waits _ (by rw [relink_link]; exact busy), relink_relink, relink_link]
    exact congrArg (fun l => s.setSlot i { s.slot i with link := l }) (if_pos busy).symm
  · rw [send, if_neg (by rw [relink_link, busy_iff]; exact busy), sendNow_cyclicOut]
    exact congrArg (fun l => s.setSlot i { s.slot i with link := l }) (if_neg busy).symm

theorem startBuilt_eq (flag : OutFlag) (source : Bytes) :
    startBuilt flag source i s = s.setSlot i ((s.slot i).startsBuilt flag source s.trunk.outLength) := by
  unfold startBuilt Slot.startsBuilt
  split
  · exact startExchange_eq flag _
  · rw [setSlot_self]

theorem startHold_eq : startHold i s = s.setSlot i (s.slot i).startsHold := by
  unfold startHold Slot.startsHold
  split
  · exact startExchange_eq .hold _
  · rw [setSlot_self]

theorem startBuilt_slotwise (flag : OutFlag) (source : Bytes) :
    Slotwise (fun _ x => x.startsBuilt flag source s.trunk.outLength) s (eachSlot (startBuilt flag source) s) :=
  eachSlot_slotwise fun _ t trunk => by rw [startBuilt_eq, trunk]

theorem startHold_slotwise : Slotwise (fun _ x => x.startsHold) s (eachSlot startHold s) :=
  eachSlot_slotwise fun _ _ _ => startHold_eq

theorem Slot.mayExchange_iff : x.mayExchange = true ↔
    x.ctx.state.exchanges = true ∧ x.power.switchOn = true ∧ x.link.link = .up ∧ x.link.lost = false := by
  simp only [Slot.mayExchange, Bool.and_eq_true, decide_eq_true_eq, Bool.not_eq_true', and_assoc]

theorem Slot.outputs_length : (x.outputs source outLength).length = x.ctx.co := by
  rw [Slot.outputs, List.length_map, List.length_range]

theorem Slot.outputs_getD {k : Nat} (h : k < x.ctx.co) : (x.outputs source outLength).getD k 0
    = outputByte source outLength x.map.output.span.offset ((x.map.tables.map TableCopy.outTable).getD []) k := by
  simp [Slot.outputs, List.getD, h]

end

/-! ### The return frame (R149, R150) -/

section
variable (s : State)

theorem recordStatus_slotwise : Slotwise (fun j x => { x with map := { x.map with reported := (s.slot j).statusInput } }) s (recordStatus s) :=
  eachSlot_slotwise fun _ _ _ => rfl

/-- R140: the trunk interface that has built a return frame. -/
def Trunk.returns (f : ReturnFrame) (t : Trunk) : Trunk :=
  { t with transmitter := if t.transmitter = .free then .sendingReturn f else t.transmitter
           waiting := if t.transmitter = .free then none else some f }

theorem buildReturn_eq (rejected : Bool) :
    buildReturn rejected s = { recordStatus s with trunk := s.trunk.returns (s.returnFrame rejected) } := by
  have trunk := (recordStatus_slotwise s).trunk
  unfold buildReturn kick
  by_cases free : s.trunk.transmitter = .free
  · rw [if_pos (by rw [modTrunk_trunk, trunk]; exact free), Trunk.returns, if_pos free, if_pos free]
    simp only [startFrame, modTrunk, State.chooseFrame, trunk]
  · rw [if_neg (by rw [modTrunk_trunk, trunk]; exact free), Trunk.returns, if_neg free, if_neg free]
    simp only [modTrunk, trunk]

theorem buildReturn_slot (rejected : Bool) (j : SlotIx) : (buildReturn rejected s).slot j
    = { s.slot j with map := { s.map j with reported := (s.slot j).statusInput } } := by
  obtain ⟨slots, same⟩ := (recordStatus_slotwise s).same
  have slot := (recordStatus_slotwise s).slot j
  rw [buildReturn_eq]
  rw [same] at slot ⊢
  exact slot

/-- What a return frame built leaves of everything but the trunk interface and the slots' reported states. -/
theorem buildReturn_same (rejected : Bool) : ∃ slots, buildReturn rejected s
    = { s with slots := slots, trunk := s.trunk.returns (s.returnFrame rejected) } := by
  obtain ⟨slots, same⟩ := (recordStatus_slotwise s).same
  exact ⟨slots, by rw [buildReturn_eq, same]⟩

end

end Sys2Proof.Machine
end

section
/-! SUPPORT. The window changes of a mark or a tick (R165, R167), seen from one slot. -/

namespace Sys2Proof.Machine

/-! ### The end of a drain, seen from elsewhere -/

section
variable {i j : SlotIx} {s t : State}

theorem Elsewhere.of_queue (slot : t.slot i = s.slot i) (queue : t.power.queue = s.power.queue) : Elsewhere i s t :=
  .inl ⟨slot, by rw [queue]⟩

theorem milestone_elsewhere (i j : SlotIx) (s : State) : Elsewhere i s (milestone j s) := .of_queue rfl rfl

variable (other : i ≠ j)
include other

theorem modCtx_elsewhere (f : Context → Context) : Elsewhere i s (modCtx j f s) := .of_queue (modCtx_slot_ne f s other) rfl

theorem modPower_elsewhere (f : SlotPower → SlotPower) : Elsewhere i s (modPower j f s) := .of_queue (modPower_slot_ne f s other) rfl

theorem modMap_elsewhere (f : SlotMap → SlotMap) : Elsewhere i s (modMap j f s) := .of_queue (modMap_slot_ne f s other) rfl

theorem examineLine_elsewhere : Elsewhere i s (examineLine j s) := by
  unfold examineLine
  split
  · exact (modPower_elsewhere other _).trans (modCtx_elsewhere other _)
  · exact .refl i s

theorem enterEmpty_elsewhere : Elsewhere i s (enterEmpty j s) :=
  (modCtx_elsewhere other _).trans ((milestone_elsewhere i j _).trans (examineLine_elsewhere other))

theorem enterWithdrawn_elsewhere (reason : Reason) : Elsewhere i s (enterWithdrawn j reason s) :=
  (enterWithdrawn_touches j reason s).elsewhere other

theorem enterFaulted_elsewhere (f : Option FaultRecord) : Elsewhere i s (enterFaulted j f s) :=
  (modCtx_elsewhere other _).trans (milestone_elsewhere i j _)

theorem backToStandby_elsewhere : Elsewhere i s (backToStandby j s) := by
  refine .of_queue ((backToStandby_becomes j s).1.others i other) ?_
  simp [backToStandby, freeAllowance]

variable (unarmed : (s.map j).input.isArmed = false)
include unarmed

theorem retry_elsewhere : Elsewhere i s (retry j s) := by
  have prepared : Elsewhere i s (disarm j (unpin j (backToStandby j (leaveQueue j s)))) :=
    ((leaveQueue_touches j s).elsewhere other).trans ((backToStandby_elsewhere other).trans
      (((unpin_neutral j _).elsewhere other).trans ((disarm_touches j _).elsewhere other)))
  unfold retry
  rw [unarmed]
  exact (prepared.trans (modCtx_elsewhere other _)).trans (besidePass_elsewhere fun t => (baseTraining_neutral j t).elsewhere other)

theorem drainComplete_elsewhere : Elsewhere i s (drainComplete j s) := by
  have stops : Elsewhere i s (send j (.request .stop) (modCtx j (fun c => { c with state := .stopping, reason := some .command }) s)) :=
    (modCtx_elsewhere other _).trans ((Neutral.send _).elsewhere other)
  have withdraws := withReleases_elsewhere (s := s) other unarmed fun t => enterWithdrawn_elsewhere (s := t) other .command
  have faults : ∀ f, Elsewhere i s (withReleases j (enterFaulted j f) s) := fun f =>
    withReleases_elsewhere other unarmed fun t => enterFaulted_elsewhere (s := t) other f
  unfold drainComplete
  dsimp only
  split
  · exact withReleases_elsewhere other unarmed fun t => enterEmpty_elsewhere (s := t) other
  · split
    · exact stops
    · exact withdraws
  · split
    · split
      · exact retry_elsewhere other unarmed
      · exact faults _
    · exact faults _
  · exact faults _

end

/-! ### The window changes of one slot, seen from elsewhere -/

section
variable {i j : SlotIx} {s t : State}

theorem goVacant_elsewhere (other : i ≠ j) (sound : Sound True none s) : Elsewhere i s (goVacant j s) := by
  unfold goVacant reportVacant
  refine (modMap_elsewhere other (SlotMap.change Window.tick)).trans ?_
  split
  · next drains =>
    rw [modMap_ctx] at drains
    have retiring := (sound.mapOk trivial).draining j drains
    refine drainComplete_elsewhere other ?_
    rw [modMap_map_same]
    show (s.map j).input.tick.isArmed = false
    revert retiring
    cases (s.map j).input <;> simp [Window.isRetiring, Window.tick, Window.isArmed]
  · exact .refl i _

theorem goLive_elsewhere (other : i ≠ j) : Elsewhere i s (goLive j s) := by
  unfold goLive
  dsimp only
  split
  · exact (modMap_elsewhere other _).trans ((modCtx_elsewhere other _).trans (milestone_elsewhere i j _))
  · exact modMap_elsewhere other _

theorem markWindows_elsewhere (other : i ≠ j) (sound : Sound True none s) : Elsewhere i s (markWindows j s) := by
  unfold markWindows
  split
  · exact goLive_elsewhere other
  · exact goVacant_elsewhere other sound

/-- The window changes of one slot at a mark or at a tick: they keep what is in order, and leave the others. -/
structure ChangesWindows (act : SlotIx → State → State) : Prop where
  sound : ∀ {i s}, Sound True none s → Sound True none (act i s)
  evolves : ∀ i s, Evolves s (act i s)
  side : ∀ i s, (act i s).trunkSide = s.trunkSide
  elsewhere : ∀ {i j s}, i ≠ j → Sound True none s → Elsewhere i s (act j s)

theorem markWindows_changes : ChangesWindows markWindows :=
  ⟨fun h => markWindows_sound _ h, fun i s => Evolves.markWindows i (.refl s), markWindows_trunkSide, markWindows_elsewhere⟩

theorem goVacant_changes : ChangesWindows goVacant :=
  ⟨fun h => goVacant_sound _ h, fun i s => Evolves.goVacant i (.refl s), goVacant_trunkSide, goVacant_elsewhere⟩

variable {act : SlotIx → State → State} {changed : List SlotIx}

/-- R165, R167: the window changes of a mark or tick, seen from slot `i`. -/
theorem windows_course (acts : ChangesWindows act) (sound : Sound True none s) (nodup : changed.Nodup) (i : SlotIx) :
    Sound True none (forList changed act s) ∧ Evolves s (forList changed act s)
    ∧ (forList changed act s).trunkSide = s.trunkSide
    ∧ (i ∉ changed → Aside i s (forList changed act s))
    ∧ (i ∈ changed → ∃ u, Sound True none u ∧ Aside i s u ∧ Aside i (act i u) (forList changed act s)) := by
  have order := freeOrder_perm s.choices changed
  have begins : Aside i s { s with choices := s.choices + 1 } :=
    ⟨(Beside.choices (checks := False) _ _).evolves, rfl, rfl, .of_same rfl rfl⟩
  obtain ⟨absent, present⟩ := foldl_course (i := i) (act := act) (P := fun _ => Sound True none) (R := Aside i) (.refl i) .trans
    (fun j _ t _ h => acts.sound h)
    (fun j _ t other h => .of_side (acts.evolves j t) (acts.side j t) (acts.elsewhere (Ne.symm other) h))
    (freeOrder s.choices changed) { s with choices := s.choices + 1 } (order.nodup_iff.mpr nodup) (sound.choices _)
  refine ⟨sound.forList changed fun j t => acts.sound, Evolves.forList _ act (fun j t h => h.trans (acts.evolves j t)) (.refl s),
    forList_trunkSide changed acts.side s, fun apart => begins.trans (absent fun member => apart (order.mem_iff.mp member)),
    fun member => ?_⟩
  obtain ⟨u, -, ready, before, after⟩ := present (order.mem_iff.mpr member)
  exact ⟨u, ready, begins.trans before, after⟩

/-- R160: the re-checks after the window changes leave a slot that has no entry and does not wait in READY. -/
theorem recheckAfter_slot (before : State) (noEntry : entriesIn t.power.queue i = []) (away : (t.ctx i).state ≠ .ready ∨ (t.ctx i).hold = true) :
    (recheckAfter changed before t).slot i = t.slot i := by
  rcases (Beside.recheckIf (changed.any fun j => (before.map j).input.isRetiring) t).slots i with same | ⟨e, listed, own⟩ | ⟨-, ready, free⟩
  · exact same
  · exact absurd own (no_entry_of_entriesIn noEntry e listed)
  · rcases away with away | held
    · exact absurd ready away
    · rw [held] at free
      cases free

theorem recheckAfter_evolves (before : State) : Evolves t (recheckAfter changed before t) := Evolves.recheckAfter changed before (.refl t)

end

/-! ### A whole mark, a whole tick, and a bad frame, seen from one slot -/

/-- The slots whose windows a mark or tick changes. -/
theorem slotsWhere_nodup (s : State) (p : Slot → Bool) : (s.slotsWhere p).Nodup := List.Nodup.filter _ (by decide)

theorem mem_slotsWhere {s : State} {p : Slot → Bool} {i : SlotIx} : i ∈ s.slotsWhere p ↔ p (s.slot i) = true :=
  List.mem_filter.trans (and_iff_right (mem_allSlots i))

theorem trunk_of_side {s t : State} (h : t.trunkSide = s.trunkSide) : t.trunk = s.trunk := congrArg Prod.fst h

theorem retained_of_side {s t : State} (h : t.trunkSide = s.trunkSide) : t.retained = s.retained := congrArg Prod.snd h

section
variable {s : State} {sending : SlotIx → Bool}

/-- R143, R145: the trunk interface at a mark. -/
def Trunk.marked (number : Nat) (t : Trunk) : Trunk :=
  { t with
    lastCycle := number, rejected := false, mode := .synchronized, tickTimer := none
    lossTimer := if t.period = 0 then t.lossTimer else some (3 * t.period * 1000) }

theorem markTrunk_eq (number : Nat) (s : State) : markTrunk number s =
    if s.trunk.mode = .synchronized then { s with trunk := s.trunk.marked number }
    else post none (.cycleState s.trunk.mode .synchronized) { s with trunk := s.trunk.marked number } := rfl

theorem markTrunk_trunk (number : Nat) (s : State) : (markTrunk number s).trunk = s.trunk.marked number := by
  rw [markTrunk_eq]
  split <;> rfl

theorem markTrunk_slot (number : Nat) (s : State) (i : SlotIx) : (markTrunk number s).slot i = s.slot i := by
  rw [markTrunk_eq]
  split <;> rfl

/-- The state at which the window changes of a mark begin: its number taken, the exchanges in flight concluded. -/
def State.atMark (s : State) (sending : SlotIx → Bool) (number : Nat) : State :=
  eachSlot (concludeExchange sending) (markTrunk number s)

/-- The state at which the window changes of a tick begin. -/
def State.atTick (s : State) (sending : SlotIx → Bool) : State := eachSlot (concludeExchange sending) s

theorem atMark_slot (number : Nat) (i : SlotIx) : (s.atMark sending number).slot i = (s.slot i).concluded (sending i) := by
  rw [State.atMark, (concluded_slotwise _ _).slot, markTrunk_slot]

theorem atMark_trunk (number : Nat) : (s.atMark sending number).trunk = s.trunk.marked number := by
  rw [State.atMark, (concluded_slotwise _ _).trunk, markTrunk_trunk]

theorem atTick_slot (i : SlotIx) : (s.atTick sending).slot i = (s.slot i).concluded (sending i) := (concluded_slotwise s sending).slot i

theorem Sound.atMark (h : Sound True none s) (number : Nat) : Sound True none (s.atMark sending number) :=
  Sound.eachSlot (fun i _ => concludeExchange_sound sending i) (markTrunk_sound number h)

theorem Sound.atTick (h : Sound True none s) : Sound True none (s.atTick sending) :=
  Sound.eachSlot (fun i _ => concludeExchange_sound sending i) h

/-- The state of a mark in which the exchanges start: the windows changed, the re-checks made. -/
def State.windowsMarked (s : State) (sending : SlotIx → Bool) (number : Nat) : State :=
  recheckAfter (s.slotsWhere fun x => x.map.pendingMark) (s.atMark sending number)
    (forList (s.slotsWhere fun x => x.map.pendingMark) markWindows (s.atMark sending number))

/-- The state of a tick in which the exchanges start. -/
def State.windowsTicked (s : State) (sending : SlotIx → Bool) : State :=
  recheckAfter (s.slotsWhere fun x => x.map.pendingTick) (s.atTick sending)
    (forList (s.slotsWhere fun x => x.map.pendingTick) goVacant (s.atTick sending))

theorem cycleMark_eq (number : Nat) (valid : Bool) (image : Bytes) : cycleMark sending number valid image s
    = buildReturn false (eachSlot (startBuilt (if valid then .valid else .invalid) image)
        { s.windowsMarked sending number with retained := image }) := rfl

theorem localTick_eq : localTick sending s
    = eachSlot (startBuilt .invalid (s.windowsTicked sending).retained) (s.windowsTicked sending) := rfl

theorem windowsMarked_trunk (number : Nat) : (s.windowsMarked sending number).trunk = s.trunk.marked number := by
  have side : (s.windowsMarked sending number).trunkSide = (s.atMark sending number).trunkSide :=
    (recheckAfter_trunkSide _ _ _).trans (forList_trunkSide _ markWindows_changes.side _)
  exact (trunk_of_side side).trans (atMark_trunk number)

theorem windowsTicked_trunkSide : (s.windowsTicked sending).trunkSide = s.trunkSide := by
  have side : (s.windowsTicked sending).trunkSide = (s.atTick sending).trunkSide :=
    (recheckAfter_trunkSide _ _ _).trans (forList_trunkSide _ goVacant_changes.side _)
  obtain ⟨slots, same⟩ := (concluded_slotwise s sending).same
  exact side.trans (by rw [State.atTick, same]; rfl)

end

end Sys2Proof.Machine
end

section
/-! SUPPORT. Cycle frames as received (R139, R142), and what a mark, a tick or a bad frame makes of one slot (R16, R70, R71, R165). -/

namespace Sys2Proof.Machine

/-! ### Cycle frames (R142, R199) -/

section
variable (flags : Byte) (number : Nat) (image : Bytes) (s : State)

theorem cycleFrameBytes_length : (cycleFrameBytes flags number image).length = 14 + image.length := by
  simp [cycleFrameBytes]
  omega

theorem frameNumber_cycleFrameBytes (small : number < 4294967296) : frameNumber (cycleFrameBytes flags number image) = number := by
  have carried := numAt32_append_right [1, flags] (enc32 number ++ (enc16 image.length ++ [0, 0] ++ image
    ++ enc32 (crc32 ([1, flags] ++ enc32 number ++ enc16 image.length ++ [0, 0] ++ image)))) 0
  exact carried.trans (numAt32_enc32 _ small)

theorem frameImageLength_cycleFrameBytes (short : image.length ≤ 1440) :
    frameImageLength (cycleFrameBytes flags number image) = image.length := enc16_numAt image.length (by omega)

theorem frameImage_cycleFrameBytes (short : image.length ≤ 1440) : frameImage (cycleFrameBytes flags number image) = image := by
  rw [frameImage, frameImageLength_cycleFrameBytes flags number image short]
  exact List.take_left

/-- R142, R143: a good cycle frame is a mark. -/
theorem exec_goodFrame (small : number < 4294967296) (short : image.length ≤ 1440) (fits : image.length = s.trunk.outLength) :
    exec (.cycleFrame (cycleFrameBytes flags number image)) s
      = .next (cycleMark (Config.cardSending s.choices) number (flags.getLsbD 0) image { s with choices := s.choices + 1 }) := by
  have length := cycleFrameBytes_length flags number image
  have kind : byteAt (cycleFrameBytes flags number image) 0 = 1 := rfl
  have cycle : classify (cycleFrameBytes flags number image) = .cycle := by
    rw [classify, if_neg (by omega), if_pos kind]
  have good : goodCycleFrame s.trunk.outLength (cycleFrameBytes flags number image) = true := by
    have crc : trunkCrcHolds (cycleFrameBytes flags number image) = true := trunkCrcHolds_withCrc32 _
    rw [goodCycleFrame, crc, frameImageLength_cycleFrameBytes flags number image short, decide_eq_true fits, decide_eq_true length]
    rfl
  rw [exec_cycleFrame, takeFrame, received_of_length_le (by omega), cycle]
  dsimp only [atExchangeStart]
  rw [takeCycleFrame, if_pos good, frameNumber_cycleFrameBytes flags number image small,
    frameImage_cycleFrameBytes flags number image short]
  rfl

end

/-- R142, R144: a bad cycle frame. -/
theorem exec_badFrame {frame : Bytes} {s : State} (bad : IsBadCycleFrame (frame.take 1454) s.trunk.outLength) :
    exec (.cycleFrame frame) s = .next (badFrame (Config.cardSending s.choices) { s with choices := s.choices + 1 }) := by
  rw [show frame.take 1454 = received frame from rfl] at bad
  obtain ⟨long, kind, fails⟩ := bad
  have cycle : classify (received frame) = .cycle := by
    rw [classify, if_neg (Nat.not_lt.mpr long), if_pos kind]
  have notGood : ¬ goodCycleFrame s.trunk.outLength (received frame) = true := by
    rw [goodCycleFrame, Bool.and_eq_true, Bool.and_eq_true, decide_eq_true_iff, decide_eq_true_iff, trunkCrcHolds_iff]
    rintro ⟨⟨⟨-, crc⟩, length⟩, whole⟩
    rcases fails with other | other | other
    · exact other crc
    · exact other length
    · exact other whole
  rw [exec_cycleFrame, takeFrame, cycle]
  dsimp only [atExchangeStart]
  rw [takeCycleFrame, if_neg notGood]

/-! ### A slot through a tick -/

section
variable {s : State} {sending : SlotIx → Bool} {i : SlotIx}

theorem atTick_power : (s.atTick sending).power = s.power := (concluded_slotwise s sending).power

theorem atMark_power (number : Nat) : (s.atMark sending number).power = s.power := by
  rw [State.atMark, (concluded_slotwise _ _).power, markTrunk_eq]
  split <;> rfl

/-- R147: a slot whose windows a tick does not change, and which no re-check or grant concerns. -/
theorem windowsTicked_stands (sound : Sound True none s) (idle : (s.map i).pendingTick = false)
    (noEntry : entriesIn s.power.queue i = [])
    (away : ((s.slot i).concluded (sending i)).ctx.state ≠ .ready ∨ ((s.slot i).concluded (sending i)).ctx.hold = true) :
    (s.windowsTicked sending).slot i = (s.slot i).concluded (sending i) := by
  obtain ⟨-, -, -, absent, -⟩ := windows_course goVacant_changes (Sound.atTick (sending := sending) sound)
    (slotsWhere_nodup s fun x => x.map.pendingTick) i
  have apart := absent fun member => by
    have due : (s.map i).pendingTick = true := mem_slotsWhere.mp member
    rw [idle] at due
    cases due
  obtain ⟨slot, entries⟩ := apart.stands.stands (by rw [atTick_power]; exact noEntry)
  rw [atTick_slot] at slot
  exact (recheckAfter_slot _ entries (by rw [State.ctx, slot]; exact away)).trans slot

/-- R143: a slot whose windows a mark does not change, and which no re-check or grant concerns. -/
theorem windowsMarked_stands (sound : Sound True none s) (number : Nat) (idle : (s.map i).pendingMark = false)
    (noEntry : entriesIn s.power.queue i = [])
    (away : ((s.slot i).concluded (sending i)).ctx.state ≠ .ready ∨ ((s.slot i).concluded (sending i)).ctx.hold = true) :
    (s.windowsMarked sending number).slot i = (s.slot i).concluded (sending i) := by
  obtain ⟨-, -, -, absent, -⟩ := windows_course markWindows_changes (Sound.atMark (sending := sending) sound number)
    (slotsWhere_nodup s fun x => x.map.pendingMark) i
  have apart := absent fun member => by
    have due : (s.map i).pendingMark = true := mem_slotsWhere.mp member
    rw [idle] at due
    cases due
  obtain ⟨slot, entries⟩ := apart.stands.stands (by rw [atMark_power]; exact noEntry)
  rw [atMark_slot] at slot
  exact (recheckAfter_slot _ entries (by rw [State.ctx, slot]; exact away)).trans slot

/-- R70, R147: a slot at the end of a tick. -/
theorem localTick_slot (i : SlotIx) : (localTick sending s).slot i
    = ((s.windowsTicked sending).slot i).startsBuilt .invalid s.retained s.trunk.outLength := by
  have side := windowsTicked_trunkSide (s := s) (sending := sending)
  rw [localTick_eq, (startBuilt_slotwise _ _).slot, retained_of_side side, trunk_of_side side]

/-- R150: a slot whose status input state has been reported. -/
def Slot.reports (x : Slot) : Slot := { x with map := { x.map with reported := x.statusInput } }

theorem Slot.reports_statusInput (x : Slot) : x.reports.statusInput = x.statusInput := rfl

/-- R70, R143, R150: a slot at the end of a mark. -/
theorem cycleMark_slot (number : Nat) (valid : Bool) (image : Bytes) (i : SlotIx) : (cycleMark sending number valid image s).slot i
    = (((s.windowsMarked sending number).slot i).startsBuilt (if valid then .valid else .invalid) image s.trunk.outLength).reports := by
  have trunk := windowsMarked_trunk (s := s) (sending := sending) number
  rw [cycleMark_eq, buildReturn_slot, State.map, (startBuilt_slotwise _ _).slot]
  show (((s.windowsMarked sending number).slot i).startsBuilt _ image (s.windowsMarked sending number).trunk.outLength).reports = _
  rw [trunk]
  rfl

/-- R70, R71, R144: a slot at the end of a bad frame. -/
theorem badFrame_slot (i : SlotIx) : (badFrame sending s).slot i
    = (if s.trunk.period = 0 then s.slot i else ((s.slot i).concluded (sending i)).startsHold).reports := by
  unfold badFrame
  dsimp only
  by_cases idle : s.trunk.period = 0
  · rw [if_pos idle, if_pos (by exact idle), buildReturn_slot]
    rfl
  · rw [if_neg idle, if_neg (by exact idle), buildReturn_slot, State.map, startHold_slotwise.slot, (concluded_slotwise _ _).slot]
    rfl

end

/-! ### The windows of a slot that a mark or tick does not change -/

theorem SlotMap.live_idle {m : SlotMap} {v w : Span} (out : m.output = .live v) (inp : m.input = .live w) :
    m.pendingMark = false ∧ m.pendingTick = false := by
  simp [SlotMap.pendingMark, SlotMap.pendingTick, out, inp, Window.isArmed, Window.isRetiring]

/-- The windows of a RUNNING context are LIVE, those of one in ADMIT_PENDING ARMED (R164). -/
theorem MapOk.live_spans {s : State} {i : SlotIx} (h : MapOk s) (running : (s.ctx i).state = .running) :
    ∃ v w, (s.map i).output = .live v ∧ (s.map i).input = .live w := by
  have live := (h.live i).mpr running
  have paired := h.paired i
  revert live paired
  unfold SlotMap.paired
  cases (s.map i).input <;> cases (s.map i).output <;> simp [Window.isLive]

theorem MapOk.armed_spans {s : State} {i : SlotIx} (h : MapOk s) (pending : (s.ctx i).state = .admitPending) :
    ∃ v w, (s.map i).output = .armed v ∧ (s.map i).input = .armed w := by
  have armed := (h.armed i).mpr pending
  have paired := h.paired i
  revert armed paired
  unfold SlotMap.paired
  cases (s.map i).input <;> cases (s.map i).output <;> simp [Window.isArmed]

theorem Slot.startsBuilt_off {x : Slot} {flag : OutFlag} {source : Bytes} {outLength : Nat} (h : x.ctx.state.exchanges = false) :
    x.startsBuilt flag source outLength = x :=
  if_neg fun may => by
    have serves := (Slot.mayExchange_iff.mp may).1
    rw [h] at serves
    cases serves

theorem Slot.startsBuilt_on {x : Slot} {flag : OutFlag} {source : Bytes} {outLength : Nat} (state : x.ctx.state.exchanges = true)
    (on : x.power.switchOn = true) (up : x.link.link = .up) (kept : x.link.lost = false) :
    x.startsBuilt flag source outLength = x.starts flag (x.outputs source outLength) :=
  if_pos (Slot.mayExchange_iff.mpr ⟨state, on, up, kept⟩)

theorem Slot.startsBuilt_lost {x : Slot} {flag : OutFlag} {source : Bytes} {outLength : Nat} (lost : x.link.lost = true) :
    x.startsBuilt flag source outLength = x :=
  if_neg fun may => by
    have kept := (Slot.mayExchange_iff.mp may).2.2.2
    rw [lost] at kept
    cases kept

theorem Slot.startsHold_on {x : Slot} (state : x.ctx.state.exchanges = true)
    (on : x.power.switchOn = true) (up : x.link.link = .up) (kept : x.link.lost = false) :
    x.startsHold = x.starts .hold (x.link.lastOutputs.getD (List.replicate x.ctx.co 0)) :=
  if_pos (Slot.mayExchange_iff.mpr ⟨state, on, up, kept⟩)

theorem Slot.startsHold_lost {x : Slot} (lost : x.link.lost = true) : x.startsHold = x :=
  if_neg fun may => by
    have kept := (Slot.mayExchange_iff.mp may).2.2.2
    rw [lost] at kept
    cases kept

/-- A context that exchanges, or waits for its mark, has no entry in the power-up queue (R45). -/
theorem Sound.noEntry {m : Prop} {s : State} {i : SlotIx} (h : Sound m none s) (idle : (s.ctx i).entry = []) :
    entriesIn s.power.queue i = [] := (h.at i).power.entries.trans idle

end Sys2Proof.Machine
end

section
/-! SUPPORT. The trunk timers (R146, R147), windows that become LIVE at a mark (R16, R167), and exchange starts that conclude the last
exchange (R17, R70, R71). -/

namespace Sys2Proof.Machine

/-! ### The trunk timers -/

section
variable {s : State}

theorem exec_lossExpiry : exec .cycleLossTimerExpiry s = .next (lossExpired s) := rfl

theorem exec_localTick : exec .localTick s = .next (tickExpired s) := rfl

theorem tickExpired_stopped (h : s.trunk.tickTimer = none) : tickExpired s = s := if_pos (Option.isNone_iff_eq_none.mpr h)

theorem tickExpired_runs (h : s.trunk.tickTimer ≠ none) :
    tickExpired s = localTick (Config.cardSending s.choices) { s with choices := s.choices + 1 } :=
  if_neg fun stopped => h (Option.isNone_iff_eq_none.mp stopped)

theorem exec_tick (h : s.trunk.tickTimer ≠ none) :
    exec .localTick s = .next (localTick (Config.cardSending s.choices) { s with choices := s.choices + 1 }) := by
  rw [exec_localTick, tickExpired_runs h]

end

/-- Settles O33. -/
theorem trunkTimersExpire : Obligations.TrunkTimersExpire := by
  unfold Obligations.TrunkTimersExpire
  intro s
  have loss : s.trunk.lossTimer ≠ none → lossExpired s = cycleLost s := fun runs =>
    if_neg fun stopped => runs (Option.isNone_iff_eq_none.mp stopped)
  refine ⟨fun stopped => ?_, fun runs => ?_, fun stopped => ?_, fun runs => ⟨_, exec_tick runs, ?_, ?_, ?_, fun power map i => ?_⟩⟩
  · rw [exec_lossExpiry, lossExpired, if_pos (Option.isNone_iff_eq_none.mpr stopped)]
  · rw [exec_lossExpiry, loss runs]
    rfl
  · rw [exec_localTick, tickExpired_stopped stopped]
  · exact trunk_of_side (localTick_trunkSide (Config.cardSending s.choices) { s with choices := s.choices + 1 })
  · exact retained_of_side (localTick_trunkSide (Config.cardSending s.choices) { s with choices := s.choices + 1 })
  · exact (Evolves.localTick (Config.cardSending s.choices) (.refl { s with choices := s.choices + 1 })).requests
  · have sound : Sound True none { s with choices := s.choices + 1 } := (map.sound power).choices _
    have slot := localTick_slot (s := { s with choices := s.choices + 1 }) (sending := Config.cardSending s.choices) i
    refine ⟨fun pending => ?_, fun running up kept idle => ?_⟩
    · obtain ⟨v, w, out, inp⟩ := map.armed_spans pending
      have state : (s.ctx i).state.exchanges = false := by rw [pending]; rfl
      have stands := windowsTicked_stands (sending := Config.cardSending s.choices) (i := i) sound
        (show (s.map i).pendingTick = false by simp [SlotMap.pendingTick, out, inp, Window.isRetiring])
        (sound.noEntry (show (s.ctx i).entry = [] by rw [Context.entry, pending]))
        (.inl (by rw [Slot.concluded_idle (.inl (by exact state))]; show (s.ctx i).state ≠ _; rw [pending]; nofun))
      rw [Slot.concluded_idle (.inl (by exact state))] at stands
      rw [stands, Slot.startsBuilt_off (by exact state)] at slot
      exact slot
    · obtain ⟨v, w, out, inp⟩ := map.live_spans running
      have state : (s.ctx i).state.exchanges = true := by rw [running]; rfl
      have stands := windowsTicked_stands (sending := Config.cardSending s.choices) (i := i) sound (SlotMap.live_idle out inp).2
        (sound.noEntry (show (s.ctx i).entry = [] by rw [Context.entry, running]))
        (.inl (by rw [Slot.concluded_idle (.inr (by exact idle))]; show (s.ctx i).state ≠ _; rw [running]; nofun))
      rw [Slot.concluded_idle (.inr (by exact idle))] at stands
      have on : (s.slotPower i).switchOn = true := power.switches i true (by rw [running]; rfl)
      rw [stands, Slot.startsBuilt_on (by exact state) (by exact on) (by exact up) (by exact kept)] at slot
      exact ⟨(s.slot i).outputs s.retained s.trunk.outLength, Slot.outputs_length, fun k inside => Slot.outputs_getD inside,
        (congrArg Slot.ctx slot).trans rfl, (congrArg Slot.map slot).trans rfl, (congrArg Slot.link slot).trans rfl⟩

/-! ### ARMED windows at a mark (R16, R165) -/

/-- R16: a slot whose ARMED windows have become LIVE. -/
def Slot.wentLive (x : Slot) : Slot :=
  { x with
    ctx := { x.ctx with state := .running, reason := none, missCount := 0, goodRun := 0 }, map := x.map.change Window.mark }

section
variable {i : SlotIx} {s t u : State}

theorem goLive_eq (pending : (s.ctx i).state = .admitPending) :
    goLive i s = post (some i) (.milestone .running none none none) (s.setSlot i (s.slot i).wentLive) := by
  rw [goLive, if_pos pending, modMap_eq, modCtx_setSlot, milestone]
  simp only [ctx_setSlot_same]
  rfl

theorem SlotMap.change_mark {m : SlotMap} {v w : Span} (out : m.output = .armed v) (inp : m.input = .armed w) :
    m.change Window.mark = { m with output := .live v, input := .live w } := by
  simp [SlotMap.change, out, inp, Window.mark]

theorem markWindows_armed (h : (s.map i).input.isArmed = true) : markWindows i s = goLive i s := if_pos (by rw [h]; rfl)

/-- What follows the window changes of a mark only adds events. -/
theorem cycleMark_evolves (sending : SlotIx → Bool) (number : Nat) (valid : Bool) (image : Bytes) :
    Evolves (forList (s.slotsWhere fun x => x.map.pendingMark) markWindows (s.atMark sending number))
      (cycleMark sending number valid image s) := by
  rw [cycleMark_eq]
  exact Evolves.buildReturn _ (Evolves.eachSlot _ (fun i _ h => Evolves.startBuilt _ _ i h) (Evolves.retained _
    (recheckAfter_evolves _)))

theorem atMark_evolves (sending : SlotIx → Bool) (number : Nat) : Evolves s (s.atMark sending number) :=
  Evolves.eachSlot _ (fun i _ h => Evolves.concludeExchange sending i h) (Evolves.markTrunk number (.refl s))

/-- An event posted on the way, by its date, among the events of the whole. -/
theorem Posted.since {o : Option SlotIx} {b : EventBody} (h : Posted o b u t) (before : Evolves s u) {n : Nat} (date : u.trunk.lastCycle = n) :
    { slot := o, cycle := n, body := b } ∈ t.events.events.drop s.events.events.length ∨ t.events.lost = true := by
  refine h.imp_left fun listed => ?_
  rw [date] at listed
  obtain ⟨more, appended⟩ := before.events
  rw [← appended, List.length_append, ← List.drop_drop] at listed
  exact List.mem_of_mem_drop listed

end

section
variable (x : Slot) (flag : OutFlag) (source : Bytes) (outLength : Nat)

theorem Slot.startsBuilt_ctx : (x.startsBuilt flag source outLength).ctx = x.ctx := by
  unfold Slot.startsBuilt
  split <;> rfl

theorem Slot.startsBuilt_map : (x.startsBuilt flag source outLength).map = x.map := by
  unfold Slot.startsBuilt
  split <;> rfl

theorem Slot.startsBuilt_power : (x.startsBuilt flag source outLength).power = x.power := by
  unfold Slot.startsBuilt
  split <;> rfl

theorem Slot.reports_map : x.reports.map = { x.map with reported := x.statusInput } := rfl

end

/-- Settles O30. -/
theorem markMakesArmedWindowsLive : Obligations.MarkMakesArmedWindowsLive := by
  unfold Obligations.MarkMakesArmedWindowsLive
  intro s flags number image i v w small short fits power map pending out inp
  refine ⟨_, exec_goodFrame flags number image s small short fits, ?_⟩
  let r : State := { s with choices := s.choices + 1 }
  let sending := Config.cardSending s.choices
  have sound : Sound True none r := (map.sound power).choices _
  have slot := cycleMark_slot (s := r) (sending := sending) number (flags.getLsbD 0) image i
  have later := cycleMark_evolves (s := r) sending number (flags.getLsbD 0) image
  obtain ⟨-, -, -, -, present⟩ := windows_course markWindows_changes (Sound.atMark (sending := sending) sound number)
    (slotsWhere_nodup r fun x => x.map.pendingMark) i
  obtain ⟨u, -, before, after⟩ := present (mem_slotsWhere.mpr (by
    show (s.map i).pendingMark = true
    simp [SlotMap.pendingMark, out, Window.isArmed]))
  have idle : (s.slot i).concluded (sending i) = s.slot i := Slot.concluded_idle (.inl (by rw [show (s.slot i).ctx.state = _ from pending]; rfl))
  have found : u.slot i = s.slot i :=
    (before.stands.stands (by rw [atMark_power]; exact sound.noEntry (show (s.ctx i).entry = [] by rw [Context.entry, pending]))).1.trans
      ((atMark_slot number i).trans idle)
  have entries := (before.stands.stands
    (by rw [atMark_power]; exact sound.noEntry (show (s.ctx i).entry = [] by rw [Context.entry, pending]))).2
  have live : markWindows i u = post (some i) (.milestone .running none none none) (u.setSlot i (s.slot i).wentLive) := by
    have armed : (u.map i).input.isArmed = true := by rw [State.map, found]; show (s.map i).input.isArmed = true; rw [inp]; rfl
    rw [markWindows_armed armed, goLive_eq (by rw [State.ctx, found]; exact pending), found]
  rw [live] at after
  obtain ⟨stands, none_⟩ := after.stands.stands (show entriesIn u.power.queue i = [] from entries)
  have own : (r.windowsMarked sending number).slot i = (s.slot i).wentLive := by
    have same := stands.trans (slot_setSlot_same u i (s.slot i).wentLive)
    refine (recheckAfter_slot _ none_ (.inl ?_)).trans same
    rw [State.ctx, same]
    exact nofun
  have windows := SlotMap.change_mark (m := s.map i) out inp
  rw [own] at slot
  generalize cycleMark sending number (flags.getLsbD 0) image r = t at slot later
  have posted : Posted (some i) (.milestone .running none none none) u t :=
    (posted_post_setSlot _ _ u i _).extend (.refl u) rfl (after.evolves.trans later)
  refine ⟨?_, ?_, ?_, posted.since ((atMark_evolves sending number).trans before.evolves) ?_, fun up kept => ?_⟩
  · exact (congrArg Slot.ctx slot).trans (Slot.startsBuilt_ctx ..)
  · rw [slot, Slot.reports_statusInput]
    refine (congrArg Slot.map slot).trans ?_
    rw [Slot.reports_map, Slot.startsBuilt_map]
    have mapped : (s.slot i).wentLive.map = { s.map i with output := .live v, input := .live w } := windows
    rw [mapped]
  · exact (congrArg Slot.power slot).trans (Slot.startsBuilt_power ..)
  · rw [before.trunk, atMark_trunk]
    rfl
  · have on : (s.slotPower i).switchOn = true := power.switches i true (by rw [pending]; rfl)
    rw [Slot.startsBuilt_on rfl (by exact on) (by exact up) (by exact kept)] at slot
    refine ⟨(s.slot i).wentLive.outputs image s.trunk.outLength, Slot.outputs_length, fun k inside => (Slot.outputs_getD (x := (s.slot i).wentLive) inside).trans ?_,
      (congrArg Slot.link slot).trans rfl⟩
    show outputByte image s.trunk.outLength ((s.map i).change Window.mark).output.span.offset
      ((((s.map i).change Window.mark).tables.map TableCopy.outTable).getD []) k = _
    rw [windows]
    rfl

/-! ### Exchange starts (R17, R70, R71) -/

/-- A slot at the end of an exchange start, but for what a return frame reports of it. -/
structure Slot.Ends (x y : Slot) : Prop where
  ctx : x.ctx = y.ctx
  power : x.power = y.power
  link : x.link = y.link
  output : x.map.output = y.map.output
  input : x.map.input = y.map.input
  tables : x.map.tables = y.map.tables
  latest : x.map.latest = y.map.latest

theorem Slot.ends_refl (x : Slot) : x.Ends x := ⟨rfl, rfl, rfl, rfl, rfl, rfl, rfl⟩

theorem Slot.reports_ends (x : Slot) : x.reports.Ends x := ⟨rfl, rfl, rfl, rfl, rfl, rfl, rfl⟩

section
variable {x : Slot} {sending : Bool}

/-- R17: a RUNNING slot below its third miss. -/
theorem Slot.concluded_below (running : x.ctx.state = .running) (flying : x.link.exchange ≠ none) (below : x.ctx.missCount < 2) :
    x.concluded sending = { x with
      ctx := { x.ctx with missCount := x.ctx.missCount + 1, goodRun := 0 }, link := x.link.concluded sending } := by
  have count : min 3 (x.ctx.missCount + 1) = x.ctx.missCount + 1 := by omega
  rw [Slot.concluded_flying (by rw [running]; rfl) flying]
  dsimp only
  rw [if_neg (by omega), count]

/-- R17, R23, R24: a RUNNING slot at its third miss. -/
theorem Slot.concluded_third (running : x.ctx.state = .running) (flying : x.link.exchange ≠ none) (third : 2 ≤ x.ctx.missCount) :
    x.concluded sending = { x with
      ctx := { x.ctx with
        state := .draining, reason := some .linkLost, missCount := 3, goodRun := 0, attempts := min 3 (x.ctx.attempts + 1) }
      link := { x.link.concluded sending with lost := true }, map := x.map.change Window.retire } := by
  have count : min 3 (x.ctx.missCount + 1) = 3 := by omega
  rw [Slot.concluded_flying (by rw [running]; rfl) flying]
  dsimp only
  rw [if_pos third, count]
  exact if_pos running

theorem Slot.concluded_away (running : x.ctx.state = .running) (flying : x.link.exchange ≠ none) :
    (x.concluded sending).ctx.state ≠ .ready := by
  by_cases third : 2 ≤ x.ctx.missCount
  · rw [Slot.concluded_third running flying third]
    exact nofun
  · rw [Slot.concluded_below running flying (by omega)]
    show x.ctx.state ≠ .ready
    rw [running]
    exact nofun

end

theorem SlotMap.change_retire {m : SlotMap} {v w : Span} (out : m.output = .live v) (inp : m.input = .live w) :
    (m.change Window.retire).output = .retiring v ∧ (m.change Window.retire).input = .retiring w := by
  simp [SlotMap.change, out, inp, Window.retire]

/-- Settles O31: the exchange in flight of a RUNNING slot at a mark, a bad frame and a tick. -/
theorem exchangeStartsConcludeTheLast : Obligations.ExchangeStartsConcludeTheLast := by
  unfold Obligations.ExchangeStartsConcludeTheLast
  intro s c flag source i v w power map running flying up kept out inp events l
  let r : State := { s with choices := s.choices + 1 }
  let sending := Config.cardSending s.choices
  let y := (s.slot i).concluded (sending i)
  have sound : Sound True none r := (map.sound power).choices _
  have noEntry : entriesIn r.power.queue i = [] := sound.noEntry (show (s.ctx i).entry = [] by rw [Context.entry, running])
  have away : y.ctx.state ≠ .ready := Slot.concluded_away running flying
  have built : ∀ {t : State} {image : Bytes}, (t.slot i).Ends (y.startsBuilt flag image s.trunk.outLength) →
      ∃ outputs : Bytes, (y.mayExchange = true → (t.slot i).Ends (y.starts flag outputs)) ∧ (y.link.lost = true → (t.slot i).Ends y)
        ∧ outputs = y.outputs image s.trunk.outLength := fun {t image} ends =>
    ⟨_, fun may => by rwa [Slot.startsBuilt, if_pos may] at ends, fun lost => by rwa [Slot.startsBuilt_lost lost] at ends, rfl⟩
  have taken : ∃ (t : State) (outputs : Bytes), exec c s = .next t
      ∧ (y.mayExchange = true → (t.slot i).Ends (y.starts flag outputs)) ∧ (y.link.lost = true → (t.slot i).Ends y)
      ∧ (source = none → outputs = y.link.lastOutputs.getD (List.replicate y.ctx.co 0))
      ∧ ∀ image, source = some image → outputs = y.outputs image s.trunk.outLength := by
    rcases events with ⟨flags, number, image, small, short, fits, rfl, rfl, rfl⟩ | ⟨frame, bad, period, rfl, rfl, rfl⟩
      | ⟨runs, rfl, rfl, rfl⟩
    · have stands := windowsMarked_stands (sending := sending) (i := i) sound number (SlotMap.live_idle out inp).1 noEntry (.inl away)
      have slot := cycleMark_slot (s := r) (sending := sending) number (flags.getLsbD 0) image i
      rw [stands] at slot
      obtain ⟨outputs, starts, lost, same⟩ := built (by rw [slot]; exact Slot.reports_ends _)
      exact ⟨_, outputs, exec_goodFrame flags number image s small short fits, starts, lost, nofun,
        fun _ h => (Option.some.inj h) ▸ same⟩
    · have slot := badFrame_slot (s := r) (sending := sending) i
      rw [if_neg (by exact period)] at slot
      exact ⟨_, _, exec_badFrame bad,
        fun may => by rw [slot, Slot.startsHold, if_pos (by exact may)]; exact Slot.reports_ends _,
        fun lost => by rw [slot, Slot.startsHold_lost (by exact lost)]; exact Slot.reports_ends _, fun _ => rfl, nofun⟩
    · have stands := windowsTicked_stands (sending := sending) (i := i) sound (SlotMap.live_idle out inp).2 noEntry (.inl away)
      have slot := localTick_slot (s := r) (sending := sending) i
      rw [stands] at slot
      obtain ⟨outputs, starts, lost, same⟩ := built (by rw [slot]; exact Slot.ends_refl _)
      exact ⟨_, outputs, exec_tick runs, starts, lost, nofun, fun _ h => (Option.some.inj h) ▸ same⟩
  obtain ⟨t, outputs, run, starts, lost, held, fresh⟩ := taken
  have on : (s.slotPower i).switchOn = true := power.switches i true (by rw [running]; rfl)
  by_cases third : 2 ≤ (s.ctx i).missCount
  · have concluded : y = _ := Slot.concluded_third running flying third
    have ends := lost (by rw [concluded])
    rw [concluded] at ends
    obtain ⟨output, input⟩ := SlotMap.change_retire (m := s.map i) out inp
    exact ⟨t, run, ends.power, fun below => absurd below (by omega), fun _ => ⟨ends.ctx, ends.link, ends.output.trans output,
      ends.input.trans input⟩⟩
  · have concluded : y = _ := Slot.concluded_below running flying (by exact Nat.lt_of_not_le third)
    have exchanges : (s.ctx i).state.exchanges = true := by rw [running]; rfl
    have ends := starts (Slot.mayExchange_iff.mpr (by
      rw [concluded]
      exact ⟨exchanges, on, up, kept⟩))
    rw [concluded] at ends held fresh
    refine ⟨t, run, ends.power, fun _ => ⟨ends.ctx, ends.output.trans out, ends.input.trans inp, outputs, ends.link, held,
      fun image named => ?_⟩, fun below => absurd below third⟩
    have same := fresh image named
    rw [same]
    refine ⟨Slot.outputs_length, fun k inside => (Slot.outputs_getD inside).trans ?_⟩
    show outputByte image s.trunk.outLength (s.map i).output.span.offset _ k = _
    rw [out]
    rfl

end Sys2Proof.Machine
end

section
/-! SUPPORT. What a return frame reports of the state it is built in (R149, R150, R171, R193), and bad cycle frames (R144). -/

namespace Sys2Proof.Machine

/-! ### Status entries and the input image (R150, R171) -/

section
variable {f : ReturnFrame} {s t : State} {x : Slot}

theorem Slot.statusInput_filled (h : ∀ w, x.map.input ≠ .live w) : x.statusInput = .filled := by
  unfold Slot.statusInput
  cases input : x.map.input with
  | live w => exact absurd input (h w)
  | _ => rfl

theorem Slot.statusInput_live {w : Span} {y : TableCopy} (live : x.map.input = .live w) (tables : x.map.tables = some y) :
    x.statusInput = liveStatus x.map.latest x.link.input y.fill := by
  rw [Slot.statusInput, live, SlotMap.fill, tables]
  rfl

theorem Slot.coversInput_iff {k : Nat} : x.coversInput k = true ↔ ∃ w, x.map.input = .live w ∧ w.covers k := by
  unfold Slot.coversInput Span.covers
  cases x.map.input with
  | live w =>
    simp only [Window.live.injEq, exists_eq_left']
    exact decide_eq_true_iff
  | _ => simp [Window.liveSpan]

theorem Slot.inputByte_live {w : Span} {y : TableCopy} (live : x.map.input = .live w) (tables : x.map.tables = some y) (k : Nat) :
    x.inputByte k = segmentByte y.inTable (carriedInputs x.map.latest x.link.input y.fill) (k - w.offset) := by
  rw [Slot.inputByte, live, SlotMap.fill, tables]
  rfl

/-- R171: the byte of a window offset that one segment of the table covers. -/
theorem segmentByte_of_covers {g : Segment} {inputs : Option Bytes} {o : Nat} {table : List Segment} (listed : g ∈ table)
    (covers : g.offset ≤ o ∧ o < g.offset + g.length)
    (alone : ∀ h ∈ table, (h.offset ≤ o ∧ o < h.offset + h.length) → h = g) :
    segmentByte table inputs o = segmentByte [g] inputs o := by
  induction table with
  | nil => cases listed
  | cons h rest ih =>
    by_cases first : h.offset ≤ o ∧ o < h.offset + h.length
    · rw [← alone h List.mem_cons_self first]
      exact (if_pos first).trans (if_pos first).symm
    · refine (if_neg first).trans <| ih ((List.mem_cons.mp listed).resolve_left fun own => first (own ▸ covers)) fun h' member => alone h' (List.mem_cons_of_mem _ member)

theorem State.imageByte_outside {k : Nat} (h : ∀ i w, (s.map i).input = .live w → ¬ w.covers k) : s.imageByte k = 0 := by
  rw [State.imageByte, find?_allSlots_eq_none fun i => Bool.eq_false_of_not_eq_true fun covers => ?_]
  obtain ⟨w, live, inside⟩ := Slot.coversInput_iff.mp covers
  exact h i w live inside

theorem State.imageByte_inside {k : Nat} {i : SlotIx} {w : Span} (live : (s.map i).input = .live w) (covers : w.covers k)
    (alone : ∀ j v, (s.map j).input = .live v → v.covers k → j = i) : s.imageByte k = (s.slot i).inputByte k := by
  have found : allSlots.find? (fun j => (s.slot j).coversInput k) = some i :=
    find?_allSlots_first (Slot.coversInput_iff.mpr ⟨w, live, covers⟩) fun j before =>
      Bool.eq_false_of_not_eq_true fun other => by
        obtain ⟨v, own, inside⟩ := Slot.coversInput_iff.mp other
        exact absurd (alone j v own inside) (Fin.ne_of_lt before)
  rw [State.imageByte, found]

theorem State.inputImage_getD {k : Nat} (h : k < s.trunk.inLength) : s.inputImage.getD k 0 = s.imageByte k := by
  simp [State.inputImage, List.getD, h]

theorem EventBlock.attention_iff (b : EventBlock) : b.attention = true ↔ b.events ≠ [] ∧ b.moderation = 0 := by
  simp [EventBlock.attention]

/-- R149, R150, R171, R193: a return frame reports the state it is built in. -/
theorem State.returnFrame_reports (s : State) (rejected : Bool) : Reports (s.returnFrame rejected) s where
  attention := s.events.attention_iff
  slots := rfl
  length := by simp [State.returnFrame, State.inputImage]
  entries := by
    intro i
    refine ⟨(s.slot i).status, by simp [State.returnFrame, allSlots_getElem?], ?_, ?_, ?_, ?_, ?_, ?_, ?_, ?_, Slot.statusInput_filled,
      fun w y live tables => ?_⟩
    · intro state; show (s.ctx i).state.phase = _; rw [state]; rfl
    · intro state; show (s.ctx i).state.phase = _; revert state; cases (s.ctx i).state <;> simp [CtxState.phase]
    · intro state; show (s.ctx i).state.phase = _; rw [state]; rfl
    · intro state; show (s.ctx i).state.phase = _; rw [state]; rfl
    · intro state; show (s.ctx i).state.phase = _; revert state; cases (s.ctx i).state <;> simp [CtxState.phase]
    · intro state; show (s.ctx i).state.phase = _; rw [state]; rfl
    · intro state; show (s.ctx i).state.phase = _; rw [state]; rfl
    · show ((s.ctx i).layout.map Layout.adapted).getD false = true ↔ _
      cases (s.ctx i).layout <;> simp
    · have input : (s.slot i).status.input = liveStatus (s.map i).latest (s.link i).input y.fill := Slot.statusInput_live live tables
      rw [input]
      refine ⟨fun none_ => by rw [none_]; rfl, fun bs some_ => ?_⟩
      rw [some_]
      exact ⟨fun fresh => by rw [fresh]; rfl, fun stale hold => by rw [stale, hold]; rfl, fun stale zero => by rw [stale, zero]; rfl⟩
  outside := by
    intro k apart
    by_cases inside : k < s.trunk.inLength
    · exact (State.inputImage_getD inside).trans (State.imageByte_outside apart)
    · exact List.getD_eq_default _ _ (by simp [State.returnFrame, State.inputImage]; omega)
  inside := by
    intro i w y k live covers inside tables alone o g listed own single
    have byte : (s.returnFrame rejected).image.getD k 0
        = segmentByte [g] (carriedInputs (s.map i).latest (s.link i).input y.fill) o :=
      ((State.inputImage_getD inside).trans ((State.imageByte_inside live covers alone).trans (Slot.inputByte_live live tables k))).trans
        (segmentByte_of_covers listed own single)
    rw [byte]
    refine ⟨fun fill => (if_pos own).trans (by rw [fill]), fun c card => ⟨fun none_ => (if_pos own).trans (by rw [card, none_]; rfl),
      fun bs some_ => ⟨fun carried => (if_pos own).trans ?_, fun stale zero => (if_pos own).trans (by rw [card, some_, stale, zero]; rfl)⟩⟩⟩
    rw [card, some_]
    rcases carried with fresh | hold
    · rw [fresh]; rfl
    · rw [hold]; cases (s.link i).input <;> rfl

/-- What a return frame reports is what the state holds of events, contexts, windows, tables and inputs. -/
theorem Reports.congr (h : Reports f s) (ctx : ∀ i, t.ctx i = s.ctx i) (input : ∀ i, (t.map i).input = (s.map i).input)
    (tables : ∀ i, (t.map i).tables = (s.map i).tables) (latest : ∀ i, (t.map i).latest = (s.map i).latest)
    (link : ∀ i, (t.link i).input = (s.link i).input) (events : t.events = s.events)
    (inLength : t.trunk.inLength = s.trunk.inLength) : Reports f t where
  attention := by rw [events]; exact h.attention
  slots := h.slots
  length := by rw [inLength]; exact h.length
  entries := by simpa only [ctx, input, tables, latest, link] using h.entries
  outside := by simpa only [input] using h.outside
  inside := by simpa only [input, tables, latest, link, inLength] using h.inside

/-- R149: a return frame reports the state that building it leaves. -/
theorem buildReturn_reports (s : State) (rejected : Bool) : Reports (s.returnFrame rejected) (buildReturn rejected s) := by
  have slot := buildReturn_slot s rejected
  obtain ⟨slots, same⟩ := buildReturn_same s rejected
  refine (s.returnFrame_reports rejected).congr (fun i => (congrArg Slot.ctx (slot i) :)) (fun i => (congrArg (fun x => x.map.input) (slot i) :))
    (fun i => (congrArg (fun x => x.map.tables) (slot i) :)) (fun i => (congrArg (fun x => x.map.latest) (slot i) :))
    (fun i => (congrArg (fun x => x.link.input) (slot i) :)) ?_ ?_
  · rw [same]
  · rw [same]
    rfl

end

/-! ### A slot at a bad frame (R144) -/

section
variable {x : Slot} {sending : Bool}

theorem Slot.startsHold_ctx (x : Slot) : x.startsHold.ctx = x.ctx := by
  unfold Slot.startsHold
  split <;> rfl

theorem Slot.startsHold_map (x : Slot) : x.startsHold.map = x.map := by
  unfold Slot.startsHold
  split <;> rfl

theorem Slot.startsHold_power (x : Slot) : x.startsHold.power = x.power := by
  unfold Slot.startsHold
  split <;> rfl

theorem Slot.concluded_power : (x.concluded sending).power = x.power := by
  unfold Slot.concluded Slot.missed Slot.lostLink
  dsimp only
  split_ifs <;> rfl

/-- R24, R72: a DRAINING slot with one miss more; a loss only sets the mark. -/
def Slot.drainMissed (sending : Bool) (x : Slot) : Slot :=
  { x with
    ctx := { x.ctx with missCount := min 3 (x.ctx.missCount + 1), goodRun := 0 }
    link := if 2 ≤ x.ctx.missCount then { x.link.concluded sending with lost := true } else x.link.concluded sending }

theorem Slot.concluded_draining (draining : x.ctx.state = .draining) (flying : x.link.exchange ≠ none) :
    x.concluded sending = x.drainMissed sending := by
  unfold Slot.drainMissed
  rw [Slot.concluded_flying (by rw [draining]; rfl) flying]
  dsimp only
  by_cases third : 2 ≤ x.ctx.missCount
  · rw [if_pos third, if_pos third, Slot.lostLink]
    exact if_neg fun running => CtxState.noConfusion (draining.symm.trans running)
  · rw [if_neg third, if_neg third]

theorem Slot.drainMissed_third (third : 2 ≤ x.ctx.missCount) :
    (x.drainMissed sending).link = { x.link.concluded sending with lost := true } := if_pos third

theorem Slot.drainMissed_below (below : x.ctx.missCount < 2) : (x.drainMissed sending).link = x.link.concluded sending :=
  if_neg (Nat.not_le.mpr below)

end

/-- R144: a bad frame changes the trunk interface and the links, contexts and windows of the slots, and no other thing. -/
theorem badFrame_same (sending : SlotIx → Bool) (s : State) : ∃ (slots : Vector Slot 12) (f : ReturnFrame),
    badFrame sending s = { s with slots := slots, trunk := { s.trunk with rejected := true }.returns f }
      ∧ f.mode = s.trunk.mode ∧ f.rejected = true ∧ f.cycle = s.trunk.lastCycle ∧ Reports f (badFrame sending s) := by
  unfold badFrame
  dsimp only
  split
  · obtain ⟨slots, same⟩ := buildReturn_same (modTrunk (fun t => { t with rejected := true }) s) true
    exact ⟨slots, _, same, rfl, rfl, rfl, buildReturn_reports _ _⟩
  · obtain ⟨first, concluded⟩ := (concluded_slotwise (modTrunk (fun t => { t with rejected := true }) s) sending).same
    obtain ⟨second, started⟩ :=
      (startHold_slotwise (s := eachSlot (concludeExchange sending) (modTrunk (fun t => { t with rejected := true }) s))).same
    have reports := buildReturn_reports
      (eachSlot startHold (eachSlot (concludeExchange sending) (modTrunk (fun t => { t with rejected := true }) s))) true
    obtain ⟨slots, same⟩ := buildReturn_same
      (eachSlot startHold (eachSlot (concludeExchange sending) (modTrunk (fun t => { t with rejected := true }) s))) true
    refine ⟨slots, _, same.trans ?_, ?_, rfl, ?_, reports⟩
    all_goals
      rw [started, concluded]
      rfl

/-- Settles O32. -/
theorem badFrameIsRejected : Obligations.BadFrameIsRejected := by
  unfold Obligations.BadFrameIsRejected
  intro s frame bad
  refine ⟨_, exec_badFrame bad, ?_⟩
  let r : State := { s with choices := s.choices + 1 }
  have slot := badFrame_slot (s := r) (sending := Config.cardSending s.choices)
  have expected := (Evolves.badFrame (Config.cardSending s.choices) (.refl r)).expected
  obtain ⟨slots, f, same, mode, rejected, cycle, reports⟩ := badFrame_same (Config.cardSending s.choices) r
  generalize badFrame (Config.cardSending s.choices) r = t at slot expected same reports
  have live : s.trunk.period ≠ 0 → ∀ i, (t.slot i).Ends ((s.slot i).concluded (Config.cardSending s.choices i)).startsHold :=
    fun period i => by
      rw [slot i, if_neg (by exact period)]
      exact Slot.reports_ends _
  have quiet : s.trunk.period = 0 → ∀ i, (t.slot i).Ends (s.slot i) := fun period i => by
    rw [slot i, if_pos (by exact period)]
    exact Slot.reports_ends _
  refine ⟨⟨f, mode, rejected, cycle, reports, ?_⟩, ?_, ?_, ?_, ?_, ?_, fun i => ⟨?_, expected i⟩, fun i idle => ?_,
    fun period i => (quiet period i).link, fun i period serving on up kept idle => ?_,
    fun i period draining flying => ?_⟩
  · rw [same]
    rfl
  · rw [same]
  · rw [same]
  · rw [same]
  · rw [same]
  · rw [same]
  · by_cases period : s.trunk.period = 0
    · exact (quiet period i).power
    · exact (live period i).power.trans ((Slot.startsHold_power _).trans Slot.concluded_power)
  · by_cases period : s.trunk.period = 0
    · exact ⟨(quiet period i).ctx, (quiet period i).output, (quiet period i).input⟩
    · have ends := live period i
      rw [Slot.concluded_idle (.inr (idle.resolve_right period))] at ends
      have windows := (s.slot i).startsHold_map
      exact ⟨ends.ctx.trans (Slot.startsHold_ctx _), ends.output.trans (congrArg SlotMap.output windows),
        ends.input.trans (congrArg SlotMap.input windows)⟩
  · have ends := live period i
    have exchanges : (s.ctx i).state.exchanges = true := by
      rcases List.mem_cons.mp serving with running | draining
      · rw [running]; rfl
      · rw [List.mem_singleton.mp draining]; rfl
    rw [Slot.concluded_idle (.inr idle), Slot.startsHold_on exchanges on up kept] at ends
    exact ends.link
  · have ends := live period i
    rw [Slot.concluded_draining draining flying] at ends
    have windows := Slot.startsHold_map ((s.slot i).drainMissed (Config.cardSending s.choices i))
    have link := ends.link
    refine ⟨ends.ctx.trans (Slot.startsHold_ctx _), ends.output.trans (congrArg SlotMap.output windows),
      ends.input.trans (congrArg SlotMap.input windows), fun third => ?_, fun below serves => ?_, fun below apart => ?_⟩
    · have lost := Slot.drainMissed_third (x := s.slot i) (sending := Config.cardSending s.choices i) third
      rw [Slot.startsHold_lost (by rw [lost])] at link
      exact link.trans lost
    · have concluded := Slot.drainMissed_below (x := s.slot i) (sending := Config.cardSending s.choices i) below
      obtain ⟨on, up, kept⟩ := serves
      have exchanges : (s.ctx i).state.exchanges = true := by rw [draining]; rfl
      rw [Slot.startsHold_on (x := (s.slot i).drainMissed _) exchanges on (by rw [concluded]; exact up) (by rw [concluded]; exact kept), Slot.starts, concluded] at link
      exact link
    · have concluded := Slot.drainMissed_below (x := s.slot i) (sending := Config.cardSending s.choices i) below
      rw [Slot.startsHold, if_neg fun may => apart ?_] at link
      · exact link.trans concluded
      · obtain ⟨-, serves⟩ := Slot.mayExchange_iff.mp may
        rw [concluded] at serves
        exact serves

end Sys2Proof.Machine
end

section
/-! SUPPORT. What the windows that a mark or a tick makes VACANT mean: the end of a drain (R25, R35) and the re-checks of the slots
that wait in READY (R160, R165). -/

namespace Sys2Proof.Machine

/-! ### Windows given up on the way (R165) -/

section
variable {i : SlotIx} {s t u v : State}

theorem releases_map (i : SlotIx) (s : State) : (releases i s).map i = (s.map i).change Window.disarm := by
  have switched : (switchOff i (leaveQueue i s)).map i = s.map i := by
    unfold switchOff leaveQueue freeAllowance
    split <;> simp
  have unpinned : (unpin i (switchOff i (leaveQueue i s))).map i = s.map i := by
    rw [← switched]
    unfold unpin
    split <;> simp
  simp only [releases, disarm, modMap_map_same, modCtx_map, modLink_map, unpinned]

theorem withReleases_map {finish : State → State} (h : ∀ t, (finish t).map i = t.map i) (s : State) :
    (withReleases i finish s).map i = (s.map i).change Window.disarm := by
  obtain ⟨u, w, passed, checked, same⟩ := withReleases_cases i finish s
  rw [same, checked.map, h, passed.map, releases_map]

theorem SlotMap.change_vacant {m : SlotMap} (h : m.input = .vacant) {f : Window → Window} (keeps : f .vacant = .vacant) :
    (m.change f).input = .vacant := by
  show f m.input = _
  rw [h, keeps]

theorem examineLine_map (i : SlotIx) (s : State) : (examineLine i s).map i = s.map i := by
  rw [examineLine_eq, map_setSlot_same]
  unfold Slot.examined
  split <;> rfl

theorem enterEmpty_map (i : SlotIx) (s : State) : (enterEmpty i s).map i = s.map i := by
  rw [enterEmpty, examineLine_map, milestone_map, modCtx_map]

theorem enterWithdrawn_map (i : SlotIx) (reason : Reason) (s : State) : (enterWithdrawn i reason s).map i = s.map i := by
  rw [enterWithdrawn, milestone_map, modCtx_map]

theorem enterFaulted_map (i : SlotIx) (f : Option FaultRecord) (s : State) : (enterFaulted i f s).map i = s.map i := by
  rw [enterFaulted, milestone_map, modCtx_map]

theorem backToStandby_map (i : SlotIx) (s : State) : (backToStandby i s).map i = s.map i :=
  (congrArg Slot.map (backToStandby_becomes i s).1.slot :)

theorem unpin_map (i : SlotIx) (s : State) : (unpin i s).map i = s.map i := (congrArg Slot.map (unpin_becomes i s).1.slot :)

theorem retry_map (i : SlotIx) (s : State) : (retry i s).map i = (s.map i).change Window.disarm := by
  obtain ⟨u, w, passed, checked, same⟩ := retry_cases i s
  obtain ⟨l, trained, -⟩ := baseTraining_becomes i u
  have map : (baseTraining i u).map i = u.map i := (congrArg Slot.map trained.slot).trans rfl
  rw [same, checked.map, map, passed.map, modCtx_map, disarm, modMap_map_same, unpin_map, backToStandby_map]
  rfl

/-- R25: the end of a drain leaves a VACANT window VACANT. -/
theorem drainComplete_vacant (h : (s.map i).input = .vacant) : ((drainComplete i s).map i).input = .vacant := by
  have gives : ∀ {finish : State → State}, (∀ t, (finish t).map i = t.map i) → ((withReleases i finish s).map i).input = .vacant :=
    fun keeps => by
      rw [withReleases_map keeps]
      exact SlotMap.change_vacant h rfl
  unfold drainComplete
  dsimp only
  split
  · exact gives (enterEmpty_map i)
  · split
    · rw [send_map, modCtx_map]
      exact h
    · exact gives (enterWithdrawn_map i .command)
  · split
    · split
      · rw [retry_map]
        exact SlotMap.change_vacant h rfl
      · exact gives (enterFaulted_map i _)
    · exact gives (enterFaulted_map i _)
  · exact gives (enterFaulted_map i _)

theorem goVacant_eq (i : SlotIx) (s : State) : goVacant i s
    = reportVacant i (s.setSlot i { s.slot i with map := (s.map i).change Window.tick }) := rfl

theorem goVacant_elsewhere_drained (away : (s.ctx i).state ≠ .draining) :
    goVacant i s = s.setSlot i { s.slot i with map := (s.map i).change Window.tick } := by
  rw [goVacant_eq]
  exact if_neg (by rw [ctx_setSlot_same]; exact away)

theorem goVacant_drains (draining : (s.ctx i).state = .draining) :
    goVacant i s = drainComplete i (s.setSlot i { s.slot i with map := (s.map i).change Window.tick }) := by
  rw [goVacant_eq]
  exact if_pos (by rw [ctx_setSlot_same]; exact draining)

/-- R165: a RETIRING window becomes VACANT at a tick. -/
theorem SlotMap.tick_vacant {m : SlotMap} (h : m.input.isRetiring = true) : (m.change Window.tick).input = .vacant := by
  show Window.tick m.input = _
  revert h
  cases m.input <;> simp [Window.isRetiring, Window.tick]

theorem goVacant_vacant (h : (s.map i).input.isRetiring = true) : ((goVacant i s).map i).input = .vacant := by
  have vacated : ((s.setSlot i { s.slot i with map := (s.map i).change Window.tick }).map i).input = .vacant := by
    rw [map_setSlot_same]
    exact SlotMap.tick_vacant h
  by_cases draining : (s.ctx i).state = .draining
  · rw [goVacant_drains draining]
    exact drainComplete_vacant vacated
  · rw [goVacant_elsewhere_drained draining]
    exact vacated

/-- Windows that change together are RETIRING together, so a mark makes them VACANT as a tick does. -/
theorem SlotMap.paired_retiring {m : SlotMap} (paired : m.paired) : m.output.isRetiring = m.input.isRetiring := by
  revert paired
  unfold SlotMap.paired
  cases m.output <;> cases m.input <;> simp [Window.isRetiring]

theorem SlotMap.paired_armed {m : SlotMap} (paired : m.paired) : m.output.isArmed = m.input.isArmed := by
  revert paired
  unfold SlotMap.paired
  cases m.output <;> cases m.input <;> simp [Window.isArmed]

theorem SlotMap.paired_vacant {m : SlotMap} (paired : m.paired) (h : m.input = .vacant) :
    m.output = .vacant ∧ m.input = .vacant ∧ m.tables = none ∧ m.latest = none := by
  revert paired
  unfold SlotMap.paired
  rw [h]
  cases m.output <;> simp

theorem markWindows_retiring (paired : (s.map i).paired) (h : (s.map i).input.isRetiring = true) : markWindows i s = goVacant i s := by
  refine if_neg ?_
  rw [SlotMap.paired_armed paired, Bool.or_self]
  revert h
  cases (s.map i).input <;> simp [Window.isRetiring, Window.isArmed]

theorem Slot.concluded_map {x : Slot} {sending : Bool} (away : x.ctx.state ≠ .running) : (x.concluded sending).map = x.map := by
  unfold Slot.concluded Slot.missed Slot.lostLink
  dsimp only
  split_ifs
  · rfl
  · rfl
  · rfl

theorem Elsewhere.map (h : Elsewhere i s t) : t.map i = s.map i := by
  rcases h with ⟨slot, -⟩ | ⟨⟨stage, increase⟩, -, slot, -⟩
  · exact congrArg Slot.map slot
  · refine (congrArg Slot.map slot).trans ?_
    cases stage <;> rfl

end

/-! ### A mark or a tick, from its window changes to its end -/

/-- A mark or a tick: it begins in `s`, changes the windows of the slots `changed` in `b`, has the waiting slots check again, and ends in
`t`, in which the exchanges have started. -/
structure WindowEvent (sending : SlotIx → Bool) (changed : List SlotIx) (act : SlotIx → State → State) (s b t : State) : Prop where
  acts : ChangesWindows act
  sound : Sound True none b
  nodup : changed.Nodup
  begun : ∀ j, b.slot j = (s.slot j).concluded (sending j)
  power : b.power = s.power
  before : Evolves s b
  listed : ∀ j, (s.map j).input.isRetiring = true → j ∈ changed
  other : ∀ j ∈ changed, (s.map j).input.isRetiring = false → (s.ctx j).state = .admitPending
  vacates : ∀ {j u}, (u.map j).paired → (u.map j).input.isRetiring = true → act j u = goVacant j u
  ends : ∀ j, ∃ flag source n, (t.slot j).Ends (((recheckAfter changed b (forList changed act b)).slot j).startsBuilt flag source n)
  after : Evolves (recheckAfter changed b (forList changed act b)) t
  date : t.trunk.lastCycle = b.trunk.lastCycle

section
variable (sending : SlotIx → Bool) (number : Nat) (valid : Bool) (image : Bytes) (s : State)

/-- The state of a mark in which its return frame is built. -/
def State.markStarted : State :=
  eachSlot (startBuilt (if valid then .valid else .invalid) image) { s.windowsMarked sending number with retained := image }

theorem cycleMark_eq_buildReturn : cycleMark sending number valid image s = buildReturn false (s.markStarted sending number valid image) :=
  rfl

theorem markStarted_trunk : (s.markStarted sending number valid image).trunk = s.trunk.marked number :=
  (startBuilt_slotwise _ _).trunk.trans (windowsMarked_trunk number)

theorem Trunk.returns_lastCycle (f : ReturnFrame) (t : Trunk) : (t.returns f).lastCycle = t.lastCycle := rfl

theorem buildReturn_trunk (rejected : Bool) : (buildReturn rejected s).trunk = s.trunk.returns (s.returnFrame rejected) := by
  obtain ⟨slots, same⟩ := buildReturn_same s rejected
  rw [same]

end

section
variable {s : State} {sending : SlotIx → Bool} (sound : Sound True none s)
include sound

theorem cycleMark_windowEvent (number : Nat) (valid : Bool) (image : Bytes) :
    WindowEvent sending (s.slotsWhere fun x => x.map.pendingMark) markWindows s (s.atMark sending number)
      (cycleMark sending number valid image s) where
  acts := markWindows_changes
  sound := Sound.atMark sound number
  nodup := slotsWhere_nodup s _
  begun := atMark_slot number
  power := atMark_power number
  before := atMark_evolves sending number
  listed j retiring := mem_slotsWhere.mpr (by
    show (s.map j).pendingMark = true
    simp [SlotMap.pendingMark, retiring])
  other j member still := by
    have pending : (s.map j).pendingMark = true := mem_slotsWhere.mp member
    have paired := (sound.mapOk trivial).paired j
    rw [SlotMap.pendingMark, SlotMap.paired_retiring paired, SlotMap.paired_armed paired, still] at pending
    exact ((sound.mapOk trivial).armed j).mp (by simpa using pending)
  vacates := markWindows_retiring
  ends j := by
    refine ⟨if valid then .valid else .invalid, image, s.trunk.outLength, ?_⟩
    rw [cycleMark_slot]
    exact Slot.reports_ends _
  after := by
    rw [cycleMark_eq]
    exact Evolves.buildReturn _ (Evolves.eachSlot _ (fun i _ h => Evolves.startBuilt _ _ i h) (Evolves.retained _ (.refl _)))
  date := by
    rw [cycleMark_eq_buildReturn, buildReturn_trunk, atMark_trunk, Trunk.returns_lastCycle, markStarted_trunk]

theorem localTick_windowEvent :
    WindowEvent sending (s.slotsWhere fun x => x.map.pendingTick) goVacant s (s.atTick sending) (localTick sending s) where
  acts := goVacant_changes
  sound := Sound.atTick sound
  nodup := slotsWhere_nodup s _
  begun := atTick_slot
  power := atTick_power
  before := Evolves.eachSlot _ (fun i _ h => Evolves.concludeExchange sending i h) (.refl s)
  listed j retiring := mem_slotsWhere.mpr (by
    show (s.map j).pendingTick = true
    simp [SlotMap.pendingTick, retiring])
  other j member still := by
    have pending : (s.map j).pendingTick = true := mem_slotsWhere.mp member
    rw [SlotMap.pendingTick, SlotMap.paired_retiring ((sound.mapOk trivial).paired j), still] at pending
    cases pending
  vacates _ _ := rfl
  ends j := by
    refine ⟨.invalid, s.retained, s.trunk.outLength, ?_⟩
    rw [localTick_slot]
    exact Slot.ends_refl _
  after := by
    rw [localTick_eq]
    exact Evolves.eachSlot _ (fun i _ h => Evolves.startBuilt _ _ i h) (.refl _)
  date := by
    have trunk : (localTick sending s).trunk = s.trunk := trunk_of_side (localTick_trunkSide sending s)
    have begun : (s.atTick sending).trunk = s.trunk := (concluded_slotwise s sending).trunk
    rw [trunk, begun]

end

end Sys2Proof.Machine
end

section
/-! SUPPORT. The slots of RETIRING windows and the slots that wait in READY, through a mark or a tick (R14, R25, R160, R165). -/

namespace Sys2Proof.Machine

/-- R158: an admission check reads the input windows and the configuration, and of its own context the identity, the layout and the
rate code. -/
theorem admission_of_inputs {s t : State} (i : SlotIx) (e : Evolves s t) (map : ∀ j, (t.map j).input = (s.map j).input)
    (ctx : t.ctx i = s.ctx i) : t.admission i = s.admission i := by
  simp only [State.admission, State.overlapping, e.period, e.outLength, e.inLength, map, ctx]

namespace WindowEvent

variable {sending : SlotIx → Bool} {changed : List SlotIx} {act : SlotIx → State → State} {s b t : State} {i : SlotIx}

section
variable (e : WindowEvent sending changed act s b t) (map : MapOk s)
include e map

omit map in
/-- A slot whose windows are not LIVE has them where it had them when the window changes begin. -/
theorem begun_map (away : (s.ctx i).state ≠ .running) : b.map i = s.map i := by
  rw [State.map, e.begun]
  exact Slot.concluded_map away

omit e in
theorem away_of_retiring (retiring : (s.map i).input.isRetiring = true) : (s.ctx i).state ≠ .running := fun running => by
  have live := (map.live i).mpr running
  revert retiring live
  cases (s.map i).input <;> simp [Window.isRetiring, Window.isLive]

/-- R160: the re-checks are due when a window was RETIRING. -/
theorem due : (changed.any fun j => (b.map j).input.isRetiring) = true ↔ ∃ k, (s.map k).input.isRetiring = true := by
  rw [List.any_eq_true]
  constructor
  · rintro ⟨j, member, retiring⟩
    cases still : (s.map j).input.isRetiring with
    | true => exact ⟨j, still⟩
    | false =>
      have pending := e.other j member still
      rw [e.begun_map (by rw [pending]; exact nofun), still] at retiring
      cases retiring
  · rintro ⟨k, retiring⟩
    exact ⟨k, e.listed k retiring, by rw [e.begun_map (away_of_retiring map retiring)]; exact retiring⟩

/-- R165: the change of RETIRING windows, in its turn. -/
theorem retired (retiring : (s.map i).input.isRetiring = true) : ∃ u, Sound True none u ∧ Aside i b u
    ∧ (u.map i).input.isRetiring = true ∧ Aside i (goVacant i u) (forList changed act b) := by
  obtain ⟨-, -, -, -, present⟩ := windows_course e.acts e.sound e.nodup i
  obtain ⟨u, ready, before, after⟩ := present (e.listed i retiring)
  have windows : (u.map i).input.isRetiring = true := by
    rw [before.stands.map, e.begun_map (away_of_retiring map retiring)]
    exact retiring
  rw [e.vacates ((ready.mapOk trivial).paired i) windows] at after
  exact ⟨u, ready, before, windows, after⟩

/-- R165: RETIRING windows are VACANT at the end. -/
theorem vacant (retiring : (s.map i).input.isRetiring = true) :
    (t.map i).output = .vacant ∧ (t.map i).input = .vacant ∧ (t.map i).tables = none ∧ (t.map i).latest = none := by
  obtain ⟨u, -, -, windows, after⟩ := e.retired map retiring
  obtain ⟨whole, -⟩ := windows_course e.acts e.sound e.nodup i
  have checked : (recheckAfter changed b (forList changed act b)).map i = (goVacant i u).map i :=
    ((Beside.recheckIf _ _).map i).trans after.stands.map
  have paired := (whole.mapOk trivial).paired i
  rw [after.stands.map] at paired
  obtain ⟨output, input, tables, latest⟩ := SlotMap.paired_vacant paired (goVacant_vacant windows)
  obtain ⟨flag, source, n, ends⟩ := e.ends i
  have started := (Slot.startsBuilt_map ((recheckAfter changed b (forList changed act b)).slot i) flag source n).trans checked
  exact ⟨ends.output.trans (by rw [started]; exact output), ends.input.trans (by rw [started]; exact input),
    ends.tables.trans (by rw [started]; exact tables), ends.latest.trans (by rw [started]; exact latest)⟩

omit map in
/-- A slot that exchanges nothing ends as the re-checks leave it. -/
theorem ends_still {x : Slot} (slot : (recheckAfter changed b (forList changed act b)).slot i = x) (still : x.ctx.state.exchanges = false) :
    (t.slot i).Ends x := by
  obtain ⟨flag, source, n, ends⟩ := e.ends i
  rw [slot, Slot.startsBuilt_off still] at ends
  exact ends

omit map in
/-- A slot that no window change, grant or re-check concerns any more. -/
theorem ends_of_aside {u : State} (after : Aside i u (forList changed act b)) (entries : entriesIn u.power.queue i = [])
    (away : (u.ctx i).state ≠ .ready ∨ (u.ctx i).hold = true) (still : (u.ctx i).state.exchanges = false) : (t.slot i).Ends (u.slot i) := by
  obtain ⟨slot, none_⟩ := after.stands.stands entries
  exact e.ends_still ((recheckAfter_slot b none_ (by rw [State.ctx, slot]; exact away)).trans slot) still

/-- R165: the RETIRING windows of a slot that neither drains nor waits become VACANT, and nothing else happens to it. -/
theorem stands (retiring : (s.map i).input.isRetiring = true) (away : (s.ctx i).state ≠ .draining)
    (idle : ¬ ((s.ctx i).state = .ready ∧ (s.ctx i).hold = false)) (noEntry : entriesIn s.power.queue i = []) :
    (t.slot i).Ends { s.slot i with map := (s.map i).change Window.tick } := by
  obtain ⟨u, ready, before, windows, after⟩ := e.retired map retiring
  have still : (s.ctx i).state.exchanges = false := by
    have other := away_of_retiring map retiring
    revert away other
    cases (s.ctx i).state <;> simp [CtxState.exchanges]
  have slot : u.slot i = s.slot i :=
    ((before.stands.stands (by rw [e.power]; exact noEntry)).1.trans (e.begun i)).trans (Slot.concluded_idle (.inl still))
  have entries := (before.stands.stands (by rw [e.power]; exact noEntry)).2
  have ctx : u.ctx i = s.ctx i := congrArg Slot.ctx slot
  rw [goVacant_elsewhere_drained (by rw [ctx]; exact away)] at after
  have ends := e.ends_of_aside after entries (by
    rw [ctx_setSlot_same, slot]
    by_cases waits : (s.ctx i).state = .ready
    · exact .inr (Bool.eq_true_of_not_eq_false fun free => idle ⟨waits, free⟩)
    · exact .inl waits) (by rw [ctx_setSlot_same, slot]; exact still)
  rw [slot_setSlot_same, slot, State.map, slot] at ends
  exact ends

end

section
variable (e : WindowEvent sending changed act s b t) (map : MapOk s) (power : PowerOk s)
include e map power

/-- R14, R160: a slot that waits, when the window changes have been made: its own windows are not RETIRING. -/
theorem waits (waiting : (s.ctx i).state = .ready) :
    (∃ m, (forList changed act b).slot i = { s.slot i with map := m }) ∧ (forList changed act b).ownRetiring i = false
      ∧ entriesIn (forList changed act b).power.queue i = [] := by
  have noEntry : entriesIn b.power.queue i = [] := by
    rw [e.power]
    exact (power.entries i).trans (by rw [Context.entry, waiting])
  have begun : b.slot i = s.slot i := (e.begun i).trans (Slot.concluded_idle (.inl (by rw [show (s.slot i).ctx.state = _ from waiting]; rfl)))
  obtain ⟨whole, -, -, absent, -⟩ := windows_course e.acts e.sound e.nodup i
  have paired := (whole.mapOk trivial).paired i
  have own : (forList changed act b).ownRetiring i = ((forList changed act b).map i).input.isRetiring := by
    rw [State.ownRetiring, SlotMap.paired_retiring paired, Bool.or_self]
  rw [own]
  cases retiring : (s.map i).input.isRetiring with
  | true =>
    obtain ⟨u, -, before, windows, after⟩ := e.retired map retiring
    obtain ⟨slot, entries⟩ := before.stands.stands noEntry
    rw [begun] at slot
    have ctx : u.ctx i = s.ctx i := congrArg Slot.ctx slot
    have vacated := goVacant_vacant windows
    rw [← after.stands.map] at vacated
    rw [goVacant_elsewhere_drained (by rw [ctx, waiting]; exact nofun)] at after
    obtain ⟨same, none_⟩ := after.stands.stands entries
    exact ⟨⟨_, same.trans (by rw [slot_setSlot_same, slot])⟩, by rw [vacated]; rfl, none_⟩
  | false =>
    have apart := absent fun member => by
      have pending := e.other i member retiring
      rw [waiting] at pending
      cases pending
    obtain ⟨same, none_⟩ := apart.stands.stands noEntry
    rw [begun] at same
    exact ⟨⟨_, same⟩, by rw [State.map, same]; exact retiring, none_⟩

/-- R160: without a RETIRING window a slot that waits stands. -/
theorem waits_undisturbed (waiting : (s.ctx i).state = .ready) (none_ : ∀ k, (s.map k).input.isRetiring ≠ true) :
    ∃ m, (t.slot i).Ends { s.slot i with map := m } := by
  obtain ⟨⟨m, slot⟩, -, -⟩ := e.waits map power waiting
  have idle : (changed.any fun j => (b.map j).input.isRetiring) = false :=
    Bool.eq_false_of_not_eq_true fun due => by
      obtain ⟨k, retiring⟩ := (e.due map).mp due
      exact none_ k retiring
  refine ⟨m, e.ends_still ?_ (by rw [show (s.slot i).ctx.state = _ from waiting]; rfl)⟩
  rw [recheckAfter, idle]
  exact slot

/-- R14, R160: with a RETIRING window somewhere each slot that waits without hold checks again. -/
theorem waits_checks (waiting : (s.ctx i).state = .ready) (free : (s.ctx i).hold = false)
    (retiring : ∃ k, (s.map k).input.isRetiring = true) :
    Rechecks i s t ∧ t.slotPower i = s.slotPower i := by
  obtain ⟨⟨m, slot⟩, own, noEntry⟩ := e.waits map power waiting
  have ctx : (forList changed act b).ctx i = s.ctx i := (congrArg Slot.ctx slot :)
  have link : (forList changed act b).link i = s.link i := (congrArg Slot.link slot :)
  have checks : recheckAfter changed b (forList changed act b) = recheckAll (forList changed act b) := by
    rw [recheckAfter, (e.due map).mpr retiring]
    rfl
  have rechecked := recheckAll_rechecks (forList changed act b) i
  rw [ctx, if_pos ⟨waiting, free, own⟩] at rechecked
  have beside := Beside.recheckAll (forList changed act b)
  have standing := (recheckAll_slotPower (forList changed act b) i).trans (congrArg Slot.power slot)
  have after := e.after
  have ends := e.ends
  rw [checks] at after ends
  obtain ⟨-, evolves, side, -⟩ := windows_course e.acts e.sound e.nodup i
  have trunk := trunk_of_side side
  generalize recheckAll (forList changed act b) = v at rechecked beside standing after ends trunk
  generalize forList changed act b = w at slot ctx link rechecked beside evolves trunk
  have quiet : (v.ctx i).state.exchanges = false := by
    cases outcome : v.admission i with
    | none => rw [(rechecked.passes outcome).1]; rfl
    | some r => rw [(rechecked.refused r outcome).1, ctx, show ({ s.ctx i with reason := some r.reason } : Context).state = _ from waiting]; rfl
  have own : (t.slot i).Ends (v.slot i) := by
    obtain ⟨flag, source, n, same⟩ := ends i
    rwa [Slot.startsBuilt_off quiet] at same
  have admission : t.admission i = v.admission i := admission_of_inputs i after (fun j => by
    obtain ⟨flag, source, n, same⟩ := ends j
    rw [State.map, same.input, Slot.startsBuilt_map]
    rfl) own.ctx
  refine ⟨⟨fun passes => ?_, fun r refused => ?_⟩, own.power.trans standing⟩
  · obtain ⟨entered, asked⟩ := rechecked.passes (admission ▸ passes)
    rw [ctx] at entered
    rw [link] at asked
    exact ⟨own.ctx.trans entered, own.link.trans asked⟩
  · obtain ⟨reason, kept, posts⟩ := rechecked.refused r (admission ▸ refused)
    rw [ctx] at reason posts
    rw [link] at kept
    refine ⟨own.ctx.trans reason, own.link.trans kept, fun changed => ?_⟩
    have posted : Posted (some i) (.admitRefused r) w v := by
      rw [Posted, ← beside.trunk]
      exact posts changed
    exact (posted.extend (.refl w) rfl after).since (e.before.trans evolves) ((congrArg Trunk.lastCycle trunk).trans e.date.symm)

omit power in
/-- R25: the end of a drain, in its turn. -/
theorem drained (draining : (s.ctx i).state = .draining) (noEntry : entriesIn s.power.queue i = []) : ∃ v : State,
    v.slot i = { (s.slot i).concluded (sending i) with map := (s.map i).change Window.tick } ∧ Evolves s v
      ∧ v.trunk.lastCycle = t.trunk.lastCycle ∧ Evolves (drainComplete i v) t
      ∧ (((drainComplete i v).ctx i).state ∈ [CtxState.empty, .settling, .stopping, .withdrawn, .faulted, .linkTraining] →
          (t.slot i).Ends ((drainComplete i v).slot i)) := by
  obtain ⟨u, ready, before, windows, after⟩ := e.retired map (map.draining i draining)
  obtain ⟨slot, -⟩ := before.stands.stands (by rw [e.power]; exact noEntry)
  have begun := slot.trans (e.begun i)
  have serves : (u.ctx i).state = .draining := by
    rw [State.ctx, begun]
    by_cases flying : (s.link i).exchange = none
    · rw [Slot.concluded_idle (.inr flying)]
      exact draining
    · rw [Slot.concluded_draining draining flying]
      exact draining
  have sound := goVacant_sound i ready
  rw [goVacant_drains serves] at after sound
  refine ⟨u.setSlot i { u.slot i with map := (u.map i).change Window.tick }, ?_,
    (e.before.trans before.evolves).trans (Evolves.modMap i (SlotMap.change Window.tick) (.refl u)), ?_,
    (after.evolves.trans (recheckAfter_evolves _)).trans e.after, fun ended => ?_⟩
  · rw [slot_setSlot_same, State.map, begun]
    exact congrArg (fun m => { (s.slot i).concluded (sending i) with map := SlotMap.change Window.tick m })
      (Slot.concluded_map (by rw [show (s.slot i).ctx.state = _ from draining]; exact nofun))
  · exact (congrArg Trunk.lastCycle before.trunk).trans e.date.symm
  · generalize drainComplete i _ = w at after sound ended
    have out : (w.ctx i).state ≠ .ready ∧ (w.ctx i).state.exchanges = false ∧ (w.ctx i).entry = [] := by
      rw [Context.entry]
      revert ended
      cases (w.ctx i).state <;> simp [CtxState.exchanges]
    obtain ⟨away, still, idle⟩ := out
    exact e.ends_of_aside after (sound.noEntry idle) (.inl away) still

end

end WindowEvent

/-! ### The end of a drain by its cause (R25) -/

section
variable {i : SlotIx} {v : State}

theorem Slot.examined_expected (x : Slot) : x.examined.expected = x.expected := by
  unfold Slot.examined
  split <;> rfl

theorem enterEmpty_eq (i : SlotIx) (s : State) : enterEmpty i s = post (some i) (.milestone .empty none none none)
    (s.setSlot i { s.slot i with ctx := (s.ctx i).emptied }.examined) := by
  have entered : modCtx i (fun c => { Context.reset with hold := c.hold }) s = s.setSlot i { s.slot i with ctx := (s.ctx i).emptied } := rfl
  rw [enterEmpty, entered, milestone, ctx_setSlot_same, examineLine_eq, post_slot, slot_setSlot_same]
  exact congrArg (post _ _) (setSlot_setSlot s i _ _)

theorem drainComplete_of_presenceLost (cause : (v.ctx i).reason = some .presenceLost) :
    drainComplete i v = withReleases i (enterEmpty i) v := by
  unfold drainComplete
  dsimp only
  rw [cause]

theorem drainComplete_of_command (cause : (v.ctx i).reason = some .command) : drainComplete i v =
    if (v.slotPower i).switchOn = true ∧ (v.link i).link = .up ∧ (v.link i).lost = false then
      send i (.request .stop) (modCtx i (fun c => { c with state := .stopping, reason := some .command }) v)
    else withReleases i (enterWithdrawn i .command) v := by
  unfold drainComplete
  dsimp only
  rw [cause]

theorem drainComplete_of_fault (cause : (v.ctx i).reason = some .fault) :
    drainComplete i v = withReleases i (enterFaulted i (v.ctx i).fault) v := by
  unfold drainComplete
  dsimp only
  rw [cause]

theorem drainComplete_of_linkLost (cause : (v.ctx i).reason = some .linkLost) : drainComplete i v =
    if v.recovers i then
      if (v.ctx i).attempts < 3 then retry i v
      else withReleases i (enterFaulted i (some (lostRecord (v.ctx i) .attemptsExhausted 6))) v
    else withReleases i (enterFaulted i (some (lostRecord (v.ctx i) .linkLost 0))) v := by
  unfold drainComplete
  dsimp only
  rw [cause]
  rfl

theorem recovers_iff : v.recovers i = true ↔ ∃ r, v.expected i = some r ∧ r.recover = true := by
  unfold State.recovers
  cases v.expected i <;> simp

section
variable (off : (v.slotPower i).switchOn = false → (v.slotPower i).off = v.slotPower i ∧ (v.ctx i).heldDraw = 0)
  (paired : (v.map i).paired)
include off paired

/-- R25, R35: a drain whose card is gone. -/
theorem withReleases_empties :
    (withReleases i (enterEmpty i) v).slot i = { (v.slot i).givenUp with ctx := (v.ctx i).emptied }.examined
      ∧ Posted (some i) (.milestone .empty none none none) v (withReleases i (enterEmpty i) v) := by
  obtain ⟨slot, -, -, -, posts⟩ := withReleases_gives i (enterEmpty i) { (v.slot i).givenUp with ctx := (v.ctx i).emptied }.examined v
    off paired (by
      unfold Slot.examined
      split <;> exact nofun)
    (fun u given => by
      have emptied : (u.ctx i).emptied = (v.ctx i).emptied := by rw [State.ctx, given]; rfl
      rw [enterEmpty_eq, emptied, given]
      refine ⟨post_setSlot_becomes _ _ ?_, rfl⟩
      rw [Slot.examined_expected, State.expected, given])
  refine ⟨slot, posts _ fun u _ => ?_⟩
  rw [enterEmpty_eq]
  exact posted_post_setSlot _ _ u i _

/-- R25: a drain that ends FAULTED, with the record given. -/
theorem withReleases_faults (f : Option FaultRecord) :
    (withReleases i (enterFaulted i f) v).slot i
        = { (v.slot i).givenUp with ctx := { (v.ctx i).released with state := .faulted, reason := none, fault := f } }
      ∧ Posted (some i) (.milestone .faulted none none (f.map fun f => (f.kind, f.detail))) v (withReleases i (enterFaulted i f) v) := by
  have enters : ∀ u : State, enterFaulted i f u = post (some i) (.milestone .faulted none none (f.map fun f => (f.kind, f.detail)))
      (u.setSlot i { u.slot i with ctx := { u.ctx i with state := .faulted, reason := none, fault := f } }) := fun u => by
    rw [enterFaulted, modCtx_eq, milestone, ctx_setSlot_same]
  obtain ⟨slot, -, -, -, posts⟩ := withReleases_gives i (enterFaulted i f)
    { (v.slot i).givenUp with ctx := { (v.ctx i).released with state := .faulted, reason := none, fault := f } } v off paired nofun
    (fun u given => by
      have entered : { u.slot i with ctx := { u.ctx i with state := .faulted, reason := none, fault := f } }
          = { (v.slot i).givenUp with ctx := { (v.ctx i).released with state := .faulted, reason := none, fault := f } } := by
        rw [State.ctx, given]
        rfl
      rw [enters, entered]
      refine ⟨post_setSlot_becomes _ _ ?_, rfl⟩
      rw [State.expected, given])
  refine ⟨slot, posts _ fun u _ => ?_⟩
  rw [enters]
  exact posted_post_setSlot _ _ u i _

end

end

end Sys2Proof.Machine
end

section
/-! SUPPORT. The ends of drains at a mark or a tick, by their cause (R25). -/

namespace Sys2Proof.Machine

section
variable {x : Slot} {sending : Bool}

/-- R17, R24: what an exchange start leaves of a DRAINING slot. -/
theorem Slot.concluded_drains (draining : x.ctx.state = .draining) :
    (x.concluded sending).ctx = { x.ctx with
        missCount := if x.link.exchange ≠ none then min 3 (x.ctx.missCount + 1) else x.ctx.missCount
        goodRun := if x.link.exchange ≠ none then 0 else x.ctx.goodRun }
      ∧ (x.concluded sending).link.link = x.link.link
      ∧ ((x.concluded sending).link.lost = true ↔ x.link.lost = true ∨ (x.link.exchange ≠ none ∧ 2 ≤ x.ctx.missCount)) := by
  by_cases flying : x.link.exchange = none
  · rw [Slot.concluded_idle (.inr flying)]
    simp [flying]
  · rw [Slot.concluded_draining draining flying, if_pos flying, if_pos flying]
    refine ⟨rfl, ?_, ?_⟩
    · unfold Slot.drainMissed
      split <;> rfl
    · by_cases third : 2 ≤ x.ctx.missCount
      · rw [Slot.drainMissed_third third]
        simp [flying, third]
      · rw [Slot.drainMissed_below (Nat.not_le.mp third)]
        simp only [third, and_false, or_false]
        exact .rfl

end

theorem Slot.examined_link (x : Slot) : x.examined.link = x.link := by
  unfold Slot.examined
  split <;> rfl

theorem Slot.examined_still {x : Slot} (h : x.power.line = false ∨ x.power.debouncer ≠ .absent) : x.examined = x := by
  refine if_neg ?_
  rintro ⟨line, absent, -⟩
  rcases h with dropped | counting
  · rw [line] at dropped
    cases dropped
  · exact counting absent

/-- R35: the examination of the line of a card that has been pushed back in. -/
theorem Slot.examined_seated {x : Slot} (line : x.power.line = true) (absent : x.power.debouncer = .absent) (empty : x.ctx.state = .empty) :
    x.examined = { x with
      ctx := { x.ctx with state := .settling, reason := none }
      power := { x.power with debouncer := .rising 10000000, presentTimer := some 10000000, absentTimer := none } } :=
  if_pos ⟨line, absent, empty⟩

/-- R62: an engine asked for a request, whichever way. -/
theorem LinkEngine.asks_request (r : ControlReq) (l : LinkEngine) :
    (∃ n, (l.asks r).pipe = .waiting r n false) ∨ (l.asks r).next = some (.request r) := by
  unfold LinkEngine.asks
  split
  · exact .inr rfl
  · exact .inl ⟨_, rfl⟩

theorem SlotMap.paired_of_tick {m : SlotMap} (paired : m.paired) (h : m.input.isRetiring = true) : (m.change Window.tick).paired := by
  have output := SlotMap.paired_retiring paired
  rw [h] at output
  unfold SlotMap.paired SlotMap.change
  revert h output
  cases m.output <;> cases m.input <;> simp [Window.isRetiring, Window.tick]

/-- The end of the drain of slot `i` in its turn in `v`, and the end `t` of the mark or tick that it belongs to. -/
structure DrainEnds (i : SlotIx) (v t : State) : Prop where
  off : (v.slotPower i).switchOn = false → (v.slotPower i).off = v.slotPower i ∧ (v.ctx i).heldDraw = 0
  paired : (v.map i).paired
  ends : ((drainComplete i v).ctx i).state ∈ [CtxState.empty, .settling, .stopping, .withdrawn, .faulted, .linkTraining] →
    (t.slot i).Ends ((drainComplete i v).slot i)

namespace DrainEnds

variable {i : SlotIx} {v t : State} (d : DrainEnds i v t)
include d

/-- R25, R35: a drain whose card is gone. -/
theorem presenceLost (cause : (v.ctx i).reason = some .presenceLost) :
    (t.link i).link = .down ∧ Posted (some i) (.milestone .empty none none none) v (drainComplete i v)
      ∧ ((v.slotPower i).line = false ∨ (v.slotPower i).debouncer ≠ .absent →
          t.ctx i = (v.ctx i).emptied ∧ t.slotPower i = (v.slotPower i).off)
      ∧ ((v.slotPower i).line = true → (v.slotPower i).debouncer = .absent →
          t.ctx i = { (v.ctx i).emptied with state := .settling }
          ∧ t.slotPower i = { (v.slotPower i).off with
              debouncer := .rising 10000000, presentTimer := some 10000000, absentTimer := none }) := by
  obtain ⟨given, posts⟩ := withReleases_empties d.off d.paired
  rw [← drainComplete_of_presenceLost cause] at given posts
  have ended := d.ends (by
    rw [State.ctx, given]
    unfold Slot.examined
    split <;> simp [Context.emptied, Context.reset])
  rw [given] at ended
  refine ⟨?_, posts, fun still => ?_, fun line absent => ?_⟩
  · rw [State.link, ended.link, Slot.examined_link]
    rfl
  · rw [Slot.examined_still (x := { (v.slot i).givenUp with ctx := (v.ctx i).emptied }) still] at ended
    exact ⟨ended.ctx, ended.power⟩
  · rw [Slot.examined_seated (x := { (v.slot i).givenUp with ctx := (v.ctx i).emptied }) line absent rfl] at ended
    exact ⟨ended.ctx, ended.power⟩

/-- R25, R26: a drain on command whose card is asked to stop. -/
theorem stops (cause : (v.ctx i).reason = some .command)
    (serves : (v.slotPower i).switchOn = true ∧ (v.link i).link = .up ∧ (v.link i).lost = false) :
    t.ctx i = { v.ctx i with state := .stopping } ∧ (t.slotPower i).switchOn = true
      ∧ ((∃ n, (t.link i).pipe = .waiting .stop n false) ∨ (t.link i).next = some (.request .stop)) := by
  have acts := drainComplete_of_command cause
  rw [if_pos serves, send_request_eq, modCtx_eq, slot_setSlot_same, setSlot_setSlot] at acts
  have given : (drainComplete i v).slot i = _ := (congrArg (fun u => u.slot i) acts).trans (slot_setSlot_same v i _)
  have ended := d.ends (by rw [State.ctx, given]; simp)
  rw [given] at ended
  refine ⟨ended.ctx.trans ?_, (congrArg SlotPower.switchOn ended.power).trans serves.1, ?_⟩
  · rw [← cause]
  · rw [State.link, ended.link]
    exact LinkEngine.asks_request .stop _

/-- R25: a drain on command whose card can no longer be asked. -/
theorem withdraws (cause : (v.ctx i).reason = some .command)
    (apart : ¬ ((v.slotPower i).switchOn = true ∧ (v.link i).link = .up ∧ (v.link i).lost = false)) :
    t.ctx i = (v.ctx i).withdrawn .command ∧ (t.slotPower i).switchOn = false ∧ (t.link i).link = .down
      ∧ Posted (some i) (.milestone .withdrawn (some .command) none none) v (drainComplete i v) := by
  obtain ⟨given, posts⟩ := withReleases_withdraws i .command v d.off d.paired
  rw [← (drainComplete_of_command cause).trans (if_neg apart)] at given posts
  have ended := d.ends (by rw [State.ctx, given.slot]; simp [Context.withdrawn])
  rw [given.slot] at ended
  exact ⟨ended.ctx, congrArg SlotPower.switchOn ended.power, congrArg LinkEngine.link ended.link, posts⟩

/-- R25: a drain that ends FAULTED, with the record given. -/
theorem faults (f : Option FaultRecord) (acts : drainComplete i v = withReleases i (enterFaulted i f) v) :
    t.ctx i = { (v.ctx i).released with state := .faulted, reason := none, fault := f } ∧ (t.slotPower i).switchOn = false
      ∧ (t.link i).link = .down
      ∧ Posted (some i) (.milestone .faulted none none (f.map fun f => (f.kind, f.detail))) v (drainComplete i v) := by
  obtain ⟨given, posts⟩ := withReleases_faults d.off d.paired f
  rw [← acts] at given posts
  have ended := d.ends (by rw [State.ctx, given]; simp)
  rw [given] at ended
  exact ⟨ended.ctx, congrArg SlotPower.switchOn ended.power, congrArg LinkEngine.link ended.link, posts⟩

/-- R25: a drain after a lost link that is tried again. -/
theorem retrains (acts : drainComplete i v = retry i v) :
    t.ctx i = { v.ctx i with
        state := .linkTraining, reason := none, identity := none, result := none, layout := none, rateCode := 0
        heldDraw := min (v.ctx i).heldDraw 150, pinned := none, progress := none, walk := none, download := none }
      ∧ (t.slotPower i).switchOn = (v.slotPower i).switchOn ∧ (t.link i).link = .training ∧ (t.link i).training = some (.base, 0) := by
  have trained := retry_retrains i v d.paired
  rw [← acts] at trained
  have ended := d.ends (by rw [trained.ctx]; simp)
  obtain ⟨training, target, -⟩ := trained.link
  exact ⟨ended.ctx.trans trained.ctx, (congrArg SlotPower.switchOn ended.power).trans (congrArg SlotPower.switchOn trained.power :),
    (congrArg LinkEngine.link ended.link).trans training, (congrArg LinkEngine.training ended.link).trans target⟩

end DrainEnds

/-- Settles O34. -/
theorem drainsCompleteAtMarksAndTicks : Obligations.DrainsCompleteAtMarksAndTicks := by
  unfold Obligations.DrainsCompleteAtMarksAndTicks
  intro s c power map events retiring waits
  let r : State := { s with choices := s.choices + 1 }
  have sound : Sound True none r := (map.sound power).choices _
  have taken : ∃ (t b : State) (changed : List SlotIx) (act : SlotIx → State → State),
      exec c s = .next t ∧ WindowEvent (Config.cardSending s.choices) changed act r b t := by
    rcases events with ⟨flags, number, image, small, short, fits, rfl⟩ | ⟨runs, rfl⟩
    · exact ⟨_, _, _, _, exec_goodFrame flags number image s small short fits, cycleMark_windowEvent sound number _ image⟩
    · exact ⟨_, _, _, _, exec_tick runs, localTick_windowEvent sound⟩
  obtain ⟨t, b, changed, act, run, e⟩ := taken
  have mapR : MapOk r := sound.mapOk trivial
  have powerR : PowerOk r := sound.powerOk
  refine ⟨t, run, fun i retired => e.vacant mapR retired, fun i retired away idle noEntry => ?_, fun i waiting => ?_, fun i draining => ?_⟩
  · have ends := e.stands mapR retired away idle (entriesIn_nil noEntry)
    exact ⟨ends.ctx, ends.power, ends.link⟩
  · obtain ⟨ready, free⟩ := waiting
    by_cases some_ : ∃ k, (s.map k).input.isRetiring = true
    · obtain ⟨checks, standing⟩ := e.waits_checks mapR powerR ready free some_
      exact ⟨standing, fun _ => ⟨checks.passes, checks.refused⟩, fun none_ => absurd some_.choose_spec (none_ _)⟩
    · obtain ⟨m, ends⟩ := e.waits_undisturbed mapR powerR ready fun k retired => some_ ⟨k, retired⟩
      exact ⟨ends.power, fun due => absurd due some_, fun _ => ⟨ends.ctx, ends.link⟩⟩
  · intro x p missed lost y recovers posts
    obtain ⟨v, slot, before, date, after, ends⟩ := e.drained mapR draining
      (sound.noEntry (show (s.ctx i).entry = [] by rw [Context.entry, draining]))
    obtain ⟨concluded, linked, marked⟩ := Slot.concluded_drains (x := s.slot i) (sending := Config.cardSending s.choices i) draining
    have ctx : v.ctx i = y := (congrArg Slot.ctx slot).trans concluded
    have slotPower : v.slotPower i = p := (congrArg Slot.power slot).trans Slot.concluded_power
    have windows : v.map i = (s.map i).change Window.tick := congrArg Slot.map slot
    have link : (v.link i).link = (s.link i).link := (congrArg (fun z => z.link.link) slot).trans linked
    have lost_iff : (v.link i).lost = true ↔ lost := by
      rw [State.link, slot]
      exact marked
    have d : DrainEnds i v t :=
      ⟨by rw [slotPower, ctx]; exact power.off i, windows ▸ SlotMap.paired_of_tick (map.paired i) (map.draining i draining), ends⟩
    have posted : ∀ {body : EventBody}, Posted (some i) body v (drainComplete i v) → posts body := fun h =>
      (h.extend (.refl v) rfl after).since before date
    have recovering : v.recovers i = true ↔ recovers := by
      rw [recovers_iff, before.expected]
      exact .rfl
    refine ⟨fun cause => ?_, fun cause => ⟨fun on up kept => ?_, fun fails => ?_⟩, fun cause => ?_, fun cause => ?_⟩
    · have gone := d.presenceLost (by rw [ctx]; exact cause)
      rw [ctx, slotPower] at gone
      obtain ⟨down, told, rest⟩ := gone
      exact ⟨down, posted told, rest⟩
    · have unmarked : (v.link i).lost = false := Bool.eq_false_of_not_eq_true fun marked => kept (lost_iff.mp marked)
      have stopping := d.stops (by rw [ctx]; exact cause) ⟨by rw [slotPower]; exact on, by rw [link]; exact up, unmarked⟩
      rw [ctx] at stopping
      exact stopping
    · have apart : ¬ ((v.slotPower i).switchOn = true ∧ (v.link i).link = .up ∧ (v.link i).lost = false) := by
        rw [slotPower, link]
        rintro ⟨on, up, kept⟩
        rcases fails with off | down | marked
        · rw [on] at off
          cases off
        · exact down up
        · rw [lost_iff.mpr marked] at kept
          cases kept
      obtain ⟨withdrawn, off, down, told⟩ := d.withdraws (by rw [ctx]; exact cause) apart
      rw [ctx] at withdrawn
      exact ⟨withdrawn, off, down, posted told⟩
    · obtain ⟨faulted, off, down, told⟩ := d.faults _ (drainComplete_of_fault (by rw [ctx]; exact cause))
      rw [ctx] at faulted told
      exact ⟨faulted, off, down, posted told⟩
    · have acts := drainComplete_of_linkLost (i := i) (v := v) (by rw [ctx]; exact cause)
      rw [ctx] at acts
      refine ⟨fun recovered below => ?_, fun recovered third => ?_, fun lasting => ?_⟩
      · rw [if_pos (recovering.mpr recovered), if_pos (by exact below)] at acts
        obtain ⟨entered, switch, training⟩ := d.retrains acts
        rw [ctx] at entered
        rw [slotPower] at switch
        exact ⟨entered, switch.trans (power.drains i draining cause), training⟩
      · rw [if_pos (recovering.mpr recovered), if_neg (by exact third)] at acts
        obtain ⟨faulted, off, -, told⟩ := d.faults _ acts
        rw [ctx] at faulted
        exact ⟨faulted, off, posted told⟩
      · rw [if_neg fun recovered => lasting (recovering.mp recovered)] at acts
        obtain ⟨faulted, off, -, told⟩ := d.faults _ acts
        rw [ctx] at faulted
        exact ⟨faulted, off, posted told⟩

end Sys2Proof.Machine
end

section
/-! SUPPORT. The dates of the events of a mark (R188), and what a mark is at the trunk (R143, R145, R149). -/

namespace Sys2Proof.Machine

/-! ### The dates of events (R188) -/

/-- R188: the last good cycle number is `n`, and every event but the first `k` is dated with it. -/
structure Dated (n k : Nat) (s : State) : Prop where
  number : s.trunk.lastCycle = n
  dates : ∀ e ∈ s.events.events.drop k, e.cycle = n

namespace Dated

variable {n k : Nat} {i : SlotIx} {s t : State}

theorem silent (h : Dated n k s) (trunk : t.trunk = s.trunk) (events : t.events = s.events) : Dated n k t :=
  ⟨by rw [trunk]; exact h.number, by rw [events]; exact h.dates⟩

theorem post (o : Option SlotIx) (b : EventBody) (h : Dated n k s) : Dated n k (Machine.post o b s) := by
  refine ⟨h.number, fun e listed => ?_⟩
  simp only [Machine.post, modEvents, EventBlock.append] at listed
  split at listed
  · rw [List.drop_append, List.mem_append] at listed
    rcases listed with before | own
    · exact h.dates e before
    · rw [List.mem_singleton.mp (List.mem_of_mem_drop own)]
      exact h.number
  · exact h.dates e listed

theorem send (i : SlotIx) (x : NextSend) (h : Dated n k s) : Dated n k (Machine.send i x s) := by
  obtain ⟨-, trunk, -, -, events, -⟩ := Beside.send_frame i x s
  exact h.silent trunk events

theorem milestone (i : SlotIx) (h : Dated n k s) : Dated n k (Machine.milestone i s) := h.post _ _

theorem grant (e : PowerEntry) (h : Dated n k s) : Dated n k (Machine.grant e s) := by
  unfold Machine.grant
  dsimp only
  split
  · exact h.silent rfl rfl
  · exact send _ _ (h.silent rfl rfl)

theorem passOver (e : PowerEntry) (h : Dated n k s) : Dated n k (Machine.passOver e s) := by
  unfold Machine.passOver
  split
  · exact h
  · exact (h.post (some e.slot) (.budgetShort e.stage e.increase s.power.committed s.power.budget)).silent rfl rfl

theorem examine (l : List PowerEntry) (h : Dated n k s) : Dated n k (Machine.examine l s) := by
  induction l generalizing s with
  | nil => exact h
  | cons e l ih =>
    unfold Machine.examine
    split
    · exact h.grant e
    · exact ih (h.passOver e)

theorem pass (h : Dated n k s) : Dated n k (Machine.pass s) := by
  unfold Machine.pass
  split
  · exact h
  · exact h.examine _

theorem besidePass (due : Bool) {report : State → State} (reports : ∀ {t}, Dated n k t → Dated n k (report t)) (h : Dated n k s) :
    Dated n k (Machine.besidePass due report s) := by
  unfold Machine.besidePass eitherOrder
  dsimp only
  split
  · split
    · exact reports (pass (h.silent rfl rfl))
    · exact pass (reports (h.silent rfl rfl))
  · exact reports h

theorem foldl (l : List SlotIx) {act : SlotIx → State → State} (acts : ∀ i {t}, Dated n k t → Dated n k (act i t)) (h : Dated n k s) :
    Dated n k (l.foldl (fun t i => act i t) s) := by
  induction l generalizing s with
  | nil => exact h
  | cons i l ih => exact ih (acts i h)

theorem forList (l : List SlotIx) {act : SlotIx → State → State} (acts : ∀ i {t}, Dated n k t → Dated n k (act i t)) (h : Dated n k s) :
    Dated n k (Machine.forList l act s) := foldl _ acts (h.silent rfl rfl)

theorem tryAdmit (i : SlotIx) (h : Dated n k s) : Dated n k (Machine.tryAdmit i s) := by
  unfold Machine.tryAdmit
  split
  · split
    · unfold refuseAdmission
      dsimp only
      split
      · exact h.silent rfl rfl
      · exact post _ _ (h.silent rfl rfl)
    · exact send _ _ (h.silent rfl rfl)
  · exact h

theorem recheckIf (due : Bool) (h : Dated n k s) : Dated n k (Machine.recheckIf due s) := by
  unfold Machine.recheckIf
  split
  · exact h.forList _ fun i _ d => tryAdmit i d
  · exact h

theorem unpin (i : SlotIx) (h : Dated n k s) : Dated n k (Machine.unpin i s) := by
  unfold Machine.unpin
  split <;> exact h.silent rfl rfl

theorem switchOff (i : SlotIx) (h : Dated n k s) : Dated n k (Machine.switchOff i s) := by
  unfold Machine.switchOff
  split <;> exact h.silent rfl rfl

theorem withReleases (i : SlotIx) {finish : State → State} (finishes : ∀ {t}, Dated n k t → Dated n k (finish t)) (h : Dated n k s) :
    Dated n k (Machine.withReleases i finish s) := by
  have left : Dated n k (leaveQueue i s) := h.silent rfl rfl
  have released : Dated n k (releases i s) := ((left.switchOff i).unpin i).silent rfl rfl
  exact released.besidePass _ fun d => (finishes d).recheckIf _

theorem examineLine (i : SlotIx) (h : Dated n k s) : Dated n k (Machine.examineLine i s) := by
  unfold Machine.examineLine
  split <;> exact h.silent rfl rfl

theorem enterEmpty (i : SlotIx) (h : Dated n k s) : Dated n k (Machine.enterEmpty i s) :=
  examineLine i (milestone i (h.silent rfl rfl))

theorem enterWithdrawn (i : SlotIx) (reason : Reason) (h : Dated n k s) : Dated n k (Machine.enterWithdrawn i reason s) :=
  milestone i (h.silent rfl rfl)

theorem enterFaulted (i : SlotIx) (f : Option FaultRecord) (h : Dated n k s) : Dated n k (Machine.enterFaulted i f s) :=
  milestone i (h.silent rfl rfl)

theorem baseTraining (i : SlotIx) (h : Dated n k s) : Dated n k (Machine.baseTraining i s) := by
  have trained : Dated n k (modCtx i (fun c => { c with rateCode := 0 }) (modLink i LinkEngine.trainBase s)) := h.silent rfl rfl
  exact trained.send i .train

theorem retry (i : SlotIx) (h : Dated n k s) : Dated n k (Machine.retry i s) := by
  have standby : Dated n k (backToStandby i (leaveQueue i s)) :=
    h.silent (by simp only [backToStandby, freeAllowance, leaveQueue, modCtx_trunk, modPower_trunk, modRack_trunk])
      (by simp only [backToStandby, freeAllowance, leaveQueue, modCtx_events, modPower_events, modRack_events])
  unfold Machine.retry
  refine besidePass _ (fun d => recheckIf _ (d.baseTraining i)) ?_
  exact (standby.unpin i).silent rfl rfl

theorem drainComplete (i : SlotIx) (h : Dated n k s) : Dated n k (Machine.drainComplete i s) := by
  unfold Machine.drainComplete
  dsimp only
  split
  · exact h.withReleases i (enterEmpty i)
  · split
    · exact send i _ (h.silent rfl rfl)
    · exact h.withReleases i (enterWithdrawn i _)
  · split
    · split
      · exact h.retry i
      · exact h.withReleases i (enterFaulted i _)
    · exact h.withReleases i (enterFaulted i _)
  · exact h.withReleases i (enterFaulted i _)

theorem markWindows (i : SlotIx) (h : Dated n k s) : Dated n k (Machine.markWindows i s) := by
  unfold Machine.markWindows
  split
  · unfold goLive
    dsimp only
    split
    · exact milestone i (h.silent rfl rfl)
    · exact h.silent rfl rfl
  · unfold goVacant reportVacant
    split
    · exact drainComplete i (h.silent rfl rfl)
    · exact h.silent rfl rfl

end Dated

section
variable (sending : SlotIx → Bool) (number : Nat) (valid : Bool) (image : Bytes) (s : State)

/-- R145, R188: the event of the new mode, if any, is the first of a mark. -/
theorem markTrunk_events : (markTrunk number s).events =
    if s.trunk.mode = .synchronized then s.events
    else s.events.append { slot := none, cycle := number, body := .cycleState s.trunk.mode .synchronized } := by
  rw [markTrunk_eq]
  split <;> rfl

theorem markTrunk_dated : Dated number s.events.events.length (markTrunk number s) := by
  have marked : Dated number s.events.events.length { s with trunk := s.trunk.marked number } := ⟨rfl, fun e listed =>
    absurd (List.drop_length ▸ listed) List.not_mem_nil⟩
  rw [markTrunk_eq]
  split
  · exact marked
  · exact marked.post none (.cycleState s.trunk.mode .synchronized)

/-- R188: every event of a mark is dated with its number. -/
theorem cycleMark_dated : Dated number s.events.events.length (s.markStarted sending number valid image) := by
  have begun : Dated number s.events.events.length (s.atMark sending number) :=
    (markTrunk_dated number s).silent (concluded_slotwise _ _).trunk (concluded_slotwise _ _).events
  have changed : Dated number s.events.events.length (s.windowsMarked sending number) :=
    (begun.forList (s.slotsWhere fun x => x.map.pendingMark) fun i _ d => Dated.markWindows i d).recheckIf _
  exact changed.silent (startBuilt_slotwise _ _).trunk (startBuilt_slotwise _ _).events

theorem markStarted_evolves : Evolves (markTrunk number s) (s.markStarted sending number valid image) := by
  have begun : Evolves (markTrunk number s) (s.atMark sending number) :=
    Evolves.eachSlot _ (fun i _ h => Evolves.concludeExchange sending i h) (.refl _)
  exact Evolves.eachSlot _ (fun i _ h => Evolves.startBuilt _ _ i h) (Evolves.retained _ (Evolves.recheckAfter _ _
    (Evolves.forList _ _ (fun i _ h => Evolves.markWindows i h) begun)))

theorem markStarted_retained : (s.markStarted sending number valid image).retained = image := (startBuilt_slotwise _ _).retained

/-- R145: the mode of a segment that was not SYNCHRONIZED changes before all else. -/
theorem markStarted_first (mode : s.trunk.mode ≠ .synchronized) (room : s.events.events.length < 32) :
    ((s.markStarted sending number valid image).events.events.drop s.events.events.length).head?
      = some { slot := none, cycle := number, body := .cycleState s.trunk.mode .synchronized } := by
  obtain ⟨more, later⟩ := (markStarted_evolves sending number valid image s).events
  have listed : (markTrunk number s).events.events
      = s.events.events ++ [{ slot := none, cycle := number, body := .cycleState s.trunk.mode .synchronized }] := by
    rw [markTrunk_events, if_neg mode, EventBlock.append, if_pos (show s.events.events.length < Config.eventCapacity from room)]
  rw [← later, listed, List.append_assoc, List.drop_left]
  rfl

end

/-- R143, R149: what building a return frame makes of the trunk interface and the rest. -/
theorem buildReturn_built (v : State) : ∃ (f : ReturnFrame) (slots : Vector Slot 12),
    buildReturn false v = { v with slots := slots, trunk := v.trunk.returns f }
      ∧ f.mode = v.trunk.mode ∧ f.rejected = false ∧ f.cycle = v.trunk.lastCycle ∧ Reports f (buildReturn false v) := by
  obtain ⟨slots, built⟩ := buildReturn_same v false
  exact ⟨_, slots, built, rfl, rfl, rfl, buildReturn_reports v false⟩

/-- Settles O29. -/
theorem markAtTheTrunk : Obligations.MarkAtTheTrunk := by
  unfold Obligations.MarkAtTheTrunk
  intro s flags number image small short fits
  refine ⟨_, exec_goodFrame flags number image s small short fits, ?_⟩
  let r : State := { s with choices := s.choices + 1 }
  have evolves : Evolves r (cycleMark (Config.cardSending s.choices) number (flags.getLsbD 0) image r) := Evolves.cycleMark _ _ _ _ (.refl r)
  have trunk := markStarted_trunk (Config.cardSending s.choices) number (flags.getLsbD 0) image r
  have retained := markStarted_retained (Config.cardSending s.choices) number (flags.getLsbD 0) image r
  have first := markStarted_first (Config.cardSending s.choices) number (flags.getLsbD 0) image r
  obtain ⟨-, dates⟩ := cycleMark_dated (Config.cardSending s.choices) number (flags.getLsbD 0) image r
  rw [cycleMark_eq_buildReturn] at evolves ⊢
  generalize r.markStarted (Config.cardSending s.choices) number (flags.getLsbD 0) image = v at evolves trunk retained first dates ⊢
  obtain ⟨f, slots, built, mode, rejected, cycle, reports⟩ := buildReturn_built v
  generalize buildReturn false v = t at evolves built reports ⊢
  have events : t.events = v.events := by rw [built]
  refine ⟨⟨f, by rw [mode, trunk]; rfl, rejected, by rw [cycle, trunk]; rfl, reports, by rw [built, trunk]; rfl⟩,
    by rw [built]; exact retained, evolves.requests, evolves.pending, evolves.expected, evolves.budget, evolves.events, ?_, ?_⟩
  · rw [events]
    exact dates
  · rw [events]
    exact first

end Sys2Proof.Machine
end
